-- ==== Sys2Proof/Word.lean ====
section
/-! DEFINITION. The word types: the 8-bit byte and the 14-bit address (00_scope.md R4). -/

namespace Sys2Proof

/-- A byte, D7 to D0; bit 7 is the most significant (00_scope.md R6). -/
abbrev Byte := BitVec 8

/-- A 14-bit address: the program counter, a stacked word, a memory address (00_scope.md R4). -/
abbrev Addr := BitVec 14

end Sys2Proof
end

