-- ==== Sys2Proof/Machine/Bus.lean ====
section
/-! DEFINITION. The bus cycles the CPU performs, as the record State keeps of each (20_memory.md R62). -/

namespace Sys2Proof.Machine

/-- One bus cycle (R62). The history of them holds the I/O history of 43_io.md R222, in program order
with the memory accesses. -/
inductive BusCycle where
  /-- PCI, a fetch of one instruction byte at `addr` (R65); `ack` marks the interrupt fetch, whose synch
  state is S1 S2 = 11 (60_exceptions.md R233) -/
  | pci (addr : Addr) (byte : Byte) (ack : Bool)
  /-- PCR, a data read (R66) -/
  | pcr (addr : Addr) (byte : Byte)
  /-- PCW, a data write (R67) -/
  | pcw (addr : Addr) (byte : Byte)
  /-- PCC, an I/O transfer: the control word RR MMM, the accumulator sent out, and the byte input when
  RR = 00 (R68) -/
  | pcc (ctl : BitVec 5) (out : Byte) (inp : Option Byte)
deriving DecidableEq, Repr

end Sys2Proof.Machine
end

