-- ==== Sys2Proof/Config.lean ====
section
/-! DEFINITION. The implementation parameters of 00_scope.md R5, as plain data, and the free values: opaque
constants of which nothing can be proved. -/

namespace Sys2Proof

/-- What an eighth push, or a pop of an empty stack, does (10_state.md R30). -/
inductive StackPolicy where
  | fault | circular
deriving DecidableEq, Repr

/-- What SHIFT ACCUMULATOR shifts in: `circular`, or another fill rule (00_scope.md R5). -/
inductive ShiftKind where
  | circular | other
deriving DecidableEq, Repr

/-- The two operating conditions (10_state.md R33). -/
inductive RunCond where
  | running | stopped
deriving DecidableEq, Repr

/-- The parameters the source leaves open, with the defaults of 00_scope.md R5 (log 3). -/
structure Params where
  /-- MEM_SIZE: bytes implemented, from address 0 up (20_memory.md R75) -/
  memSize : Nat := 16384
  /-- ADDR_LOW_FIRST (30_encoding.md R98) -/
  addrLowFirst : Bool := true
  /-- STACK_POLICY (10_state.md R30) -/
  stackPolicy : StackPolicy := .fault
  /-- HAS_RESTART (30_encoding.md R103) -/
  hasRestart : Bool := false
  /-- RST_SHIFT (42_control.md R201) -/
  rstShift : Nat := 2
  /-- RST_PUSH: OPEN, `none` until it is chosen (42_control.md R201) -/
  rstPush : Option Bool := none
  /-- INT_OPERAND_ADVANCE (60_exceptions.md R235) -/
  intOperandAdvance : Bool := true
  /-- SHIFT_KIND (41_arithmetic.md R160) -/
  shiftKind : ShiftKind := .circular
  /-- INIT_RUN (70_reset_and_hazards.md R262) -/
  initRun : RunCond := .stopped
deriving DecidableEq, Repr

/-- MEM_SIZE is 1 to 16384 (00_scope.md R5); the other parameters have no bound. -/
def Params.wf (p : Params) : Bool := 1 ≤ p.memSize && p.memSize ≤ 16384

/-- FREE VALUE. The new accumulator and carry of a shift whose SHIFT_KIND is not circular, from the
direction (true for right), the accumulator and the carry (92_eei_decisions.md D13; log 20). -/
opaque Config.otherShift : Bool → Byte → Bool → Byte × Bool

/-- FREE VALUE. The byte an I/O unit returns to a read: an oracle that may look at the whole history of
bus cycles, the control word and the accumulator sent out (43_io.md R222; log 7). -/
opaque Config.ioOracle : List Machine.BusCycle → BitVec 5 → Byte → Byte

/-- FREE VALUE. What line D0 carries in cycle 1 of the `n`th bus cycle, a PCC cycle (20_memory.md R68;
log 33). -/
opaque Config.pccD0 : Nat → Bool

end Sys2Proof
end

