-- ==== Sys2Proof/Syntax.lean ====
section
/-! DEFINITION. The instructions: one constructor for each row of spec/opcode_table.json. -/

namespace Sys2Proof

/-- The seven data registers an instruction can name (10_state.md R20); code 7 is no register. -/
inductive Reg where
  | a | b | c | d | e | h | l
deriving DecidableEq, Repr

/-- The four conditions, named by their flip-flops (30_encoding.md R95). -/
inductive Cond where
  | carry | zero | sign | parity
deriving DecidableEq, Repr

/-- The eight operations PPP (30_encoding.md R94). -/
inductive AluOp where
  | ad | ac | su | sb | nd | xr | or | cp
deriving DecidableEq, Repr

/-- One constructor for each row of spec/opcode_table.json. Register fields are `Reg`, so code 7 has
its own rows; `n` is the immediate byte (R97), `t` the 14-bit jump target (R98). -/
inductive Instr where
  /-- `00 000 00-` HALT (R199) -/
  | halt
  /-- `11 111 111` HALT (R200) -/
  | haltFF
  /-- MOVE d,s (R130) -/
  | moveRR (dst src : Reg)
  /-- MOVE d,M (R131) -/
  | moveRM (dst : Reg)
  /-- MOVE M,s (R132) -/
  | moveMR (src : Reg)
  /-- MOVI d,n (R133) -/
  | moviR (dst : Reg) (n : Byte)
  /-- MOVI M,n (R134) -/
  | moviM (n : Byte)
  /-- AD s, AD M, ADI n (R152) -/
  | adS (src : Reg)
  | adM
  | adI (n : Byte)
  /-- AC s, AC M, ACI n (R153) -/
  | acS (src : Reg)
  | acM
  | acI (n : Byte)
  /-- SU s, SU M, SUI n (R154) -/
  | suS (src : Reg)
  | suM
  | suI (n : Byte)
  /-- SB s, SB M, SBI n (R155) -/
  | sbS (src : Reg)
  | sbM
  | sbI (n : Byte)
  /-- ND s, ND M, NDI n (R156) -/
  | ndS (src : Reg)
  | ndM
  | ndI (n : Byte)
  /-- XR s, XR M, XRI n (R157) -/
  | xrS (src : Reg)
  | xrM
  | xrI (n : Byte)
  /-- OR s, OR M, ORI n (R158) -/
  | orS (src : Reg)
  | orM
  | orI (n : Byte)
  /-- CP s, CP M, CPI n (R159) -/
  | cpS (src : Reg)
  | cpM
  | cpI (n : Byte)
  /-- SHIFT ACCUMULATOR, W = 0 (R160) -/
  | shl
  /-- SHIFT ACCUMULATOR, W = 1 (R161) -/
  | shr
  /-- JUMP with X = 1, Y = 0 (R191) -/
  | jmp (t : Addr)
  /-- JUMP with X = 1, Y = 1 (R192) -/
  | call (t : Addr)
  /-- JUMP with X = 0, Y = 0, I = 0 (R193) -/
  | jfc (t : Addr)
  | jfz (t : Addr)
  | jfs (t : Addr)
  | jfp (t : Addr)
  /-- JUMP with X = 0, Y = 0, I = 1 (R194) -/
  | jtc (t : Addr)
  | jtz (t : Addr)
  | jts (t : Addr)
  | jtp (t : Addr)
  /-- JUMP with X = 0, Y = 1, I = 0 (R195) -/
  | cfc (t : Addr)
  | cfz (t : Addr)
  | cfs (t : Addr)
  | cfp (t : Addr)
  /-- JUMP with X = 0, Y = 1, I = 1 (R196) -/
  | ctc (t : Addr)
  | ctz (t : Addr)
  | cts (t : Addr)
  | ctp (t : Addr)
  /-- RETURN CONDITIONAL, I = 0 (R197) -/
  | rfc
  | rfz
  | rfs
  | rfp
  /-- RETURN CONDITIONAL, I = 1 (R198) -/
  | rtc
  | rtz
  | rts
  | rtp
  /-- RESTART, optional; `k` is XYZ (R201) -/
  | rst (k : BitVec 3)
  /-- I/O CONTROL with RR = 00; `m` is MMM (R220) -/
  | inp (m : BitVec 3)
  /-- I/O CONTROL with RR = `r`, not 00; `m` is MMM (R221) -/
  | io (r : BitVec 2) (m : BitVec 3)
  /-- the unassigned first bytes `00 aaa 000` (R102) -/
  | unassigned0 (aaa : BitVec 3)
  /-- the unassigned first bytes `00 aaa 001` (R102) -/
  | unassigned1 (aaa : BitVec 3)
  /-- the unassigned first bytes `00 aaa 010` (R102) -/
  | unassigned2 (aaa : BitVec 3)
  /-- the unassigned first bytes `00 aaa 011` (R102) -/
  | unassigned3 (aaa : BitVec 3)
deriving DecidableEq, Repr

end Sys2Proof
end

