-- ==== Sys2Proof/Machine/State.lean ====
section
/-! DEFINITION. The state of the machine as plain data (10_state.md), the reasons a step can stop, and the
state after reset. -/

namespace Sys2Proof.Machine

/-- The seven data registers (10_state.md R20). -/
structure Regs where
  a : Byte
  b : Byte
  c : Byte
  d : Byte
  e : Byte
  h : Byte
  l : Byte
deriving DecidableEq, Repr

/-- The four condition flip-flops CARRY, ZERO, SIGN, PARITY (10_state.md R31). -/
structure Flags where
  c : Bool
  z : Bool
  s : Bool
  p : Bool
deriving DecidableEq, Repr

/-- The address stack: seven 14-bit words and the depth `sp` in 0..7. The outstanding addresses are
words 0 to `sp - 1`, the oldest first (10_state.md R29, R30). -/
structure AddrStack where
  words : Vector Addr 7
  sp : Fin 8
deriving DecidableEq, Repr

/-- Memory: the bytes that have been written, strictly rising by address (10_state.md R37). -/
abbrev Memory := List Host.Cell

/-- One inserted instruction: for each of its bytes the byte the interrupt logic drives, or `none` where
it does not drive the lines and memory answers (60_exceptions.md R233, R235; log 6). -/
structure Insertion where
  byte1 : Option Byte
  byte2 : Option Byte
  byte3 : Option Byte
deriving DecidableEq, Repr

/-- The whole state. -/
structure State where
  /-- the data registers (R20) -/
  regs : Regs
  /-- the condition flip-flops (R31) -/
  flags : Flags
  /-- the program counter (R26) -/
  pc : Addr
  /-- the address stack (R29) -/
  stk : AddrStack
  /-- the run condition (R33) -/
  run : RunCond
  /-- the instruction register: the first byte of the instruction being executed (R34; log 31) -/
  ir : Byte
  /-- the MODEL's own field: the address put out for that byte (60_exceptions.md R230; log 31) -/
  iaddr : Addr
  /-- memory (R37) -/
  mem : Memory
  /-- the bus cycles so far, newest first (20_memory.md R62, R76, 43_io.md R222; log 32) -/
  bus : List BusCycle
  /-- the interrupt logic's move at each coming instruction boundary: `none` where INT is not enabled; an
  empty list is INT not enabled from here on (60_exceptions.md R232; log 5) -/
  intMoves : List (Option Insertion)
  /-- the bytes the I/O units will answer, in order; then the free oracle answers (43_io.md R222; log 7) -/
  ioAnswers : List Byte
  /-- the implementation parameters, which no step changes (00_scope.md R5; log 3) -/
  params : Params
deriving DecidableEq, Repr

/-- Why the machine stops. The hardware raises none of these (60_exceptions.md R230): each marks a point
where its behaviour is not defined. -/
inductive Fault where
  /-- a fetch, read or write at or above MEM_SIZE; raised by every memory access (20_memory.md R75). Safe:
  it allows nothing the hardware lacks -/
  | unimplemented (addr : Addr)
  /-- a fetch or read of a memory byte that nothing has written (10_state.md R43). Safe -/
  | unwrittenRead (addr : Addr)
  /-- a push at depth 7 under STACK_POLICY = fault; raised by CALL, CFc, CTc and RST (10_state.md R30);
  records the address of the instruction. Safe -/
  | stackOverflow (addr : Addr)
  /-- a pop at depth 0 under STACK_POLICY = fault; raised by RFc and RTc (10_state.md R30); records the
  address of the instruction. Safe -/
  | stackUnderflow (addr : Addr)
deriving DecidableEq, Repr

/-- Why an instruction has no meaning. -/
inductive Refusal where
  /-- the instruction's arm in Dispatch.lean has no meaning yet. Safe -/
  | notModelled (mnemonic : String)
  /-- one of the 28 unassigned first bytes; records the byte and its address (30_encoding.md R102). Safe -/
  | unassigned (byte : Byte) (addr : Addr)
  /-- RESTART where HAS_RESTART is false; records the byte (30_encoding.md R103). Safe -/
  | restartAbsent (byte : Byte)
  /-- RESTART where HAS_RESTART is true and RST_PUSH has not been chosen; records the byte
  (42_control.md R201). Safe -/
  | restartPushOpen (byte : Byte)
deriving DecidableEq, Repr

/-- The outcome of an instruction. -/
abbrev Result := Host.Outcome State Fault Refusal

/-- The launch state of 70_reset_and_hazards.md R262, from what a launch is given: the parameters (with
INIT_RUN), `pc`, the platform's image in memory, and what the environment will do, the moves of the interrupt
logic and the answers of the I/O units. The stack is empty. Registers, flip-flops, stack words and the
instruction register hold zero, which is the model's choice (log 1). -/
def State.launch (p : Params) (pc : Addr) (image : Memory) (intMoves : List (Option Insertion))
    (ioAnswers : List Byte) : State where
  regs := { a := 0, b := 0, c := 0, d := 0, e := 0, h := 0, l := 0 }
  flags := { c := false, z := false, s := false, p := false }
  pc := pc
  stk := { words := Vector.replicate 7 0, sp := 0 }
  run := p.initRun
  ir := 0
  iaddr := 0
  mem := image
  bus := []
  intMoves := intMoves
  ioAnswers := ioAnswers
  params := p

/-- The state after reset: the launch with every parameter at its default and nothing placed. That `pc` is zero
and that the environment does not enable INT are the model's choices (70_reset_and_hazards.md R262; log 1, 4). -/
def State.reset : State := State.launch {} 0 [] [] []

end Sys2Proof.Machine
end

