-- ==== Sys2Proof/Machine/Ops.lean ====
section
/-! DEFINITION. The named operations over memory, the bus, the address stack and the interrupt input, which
every meaning is written over (00_scope.md R8). -/

namespace Sys2Proof.Machine

/-! ### Outcomes -/

/-- Go on with a value, or stop with the fault. -/
def orFault {α : Type} (r : Except Fault α) (k : α → Result) : Result :=
  match r with
  | .ok v => k v
  | .error f => .fault f

/-! ### Memory contents -/

/-- What an address that nothing has written reads as: no value (10_state.md R43; log 2). -/
def Memory.unlisted : Option Byte := none

/-- The byte at an address, if it has one. -/
def Memory.byteAt (m : Memory) (a : Nat) : Option Byte :=
  match m with
  | [] => Memory.unlisted
  | (k, v) :: rest => if k = a then some v else Memory.byteAt rest a

/-- Memory with `v` at address `a` and every other byte as before (20_memory.md R70). -/
def Memory.store (m : Memory) (a : Nat) (v : Byte) : Memory :=
  match m with
  | [] => [(a, v)]
  | (k, w) :: rest =>
    if a < k then (a, v) :: (k, w) :: rest
    else if a = k then (a, v) :: rest
    else (k, w) :: Memory.store rest a v

/-- The canonical form: addresses strictly rising. No entry can equal what an unlisted address reads as,
since that is no value. -/
abbrev Memory.wf (m : Memory) : Prop := m.Pairwise (fun x y => x.1 < y.1)

/-! ### Bus cycles on memory -/

/-- A bus cycle is appended to the history (43_io.md R222). -/
def State.log (s : State) (c : BusCycle) : State := { s with bus := c :: s.bus }

/-- The byte memory answers at an address; an absent address and an unwritten byte stop the machine
(20_memory.md R75, 10_state.md R43). -/
def readByte (s : State) (a : Addr) : Except Fault Byte :=
  if s.params.memSize ≤ a.toNat then .error (.unimplemented a)
  else match s.mem.byteAt a.toNat with
    | some b => .ok b
    | none => .error (.unwrittenRead a)

/-- `MemRead(a, 1)`: one PCR cycle (20_memory.md R66, R70). -/
def memRead (s : State) (a : Addr) : Except Fault (Byte × State) :=
  match readByte s a with
  | .ok b => .ok (b, s.log (.pcr a b))
  | .error f => .error f

/-- `MemWrite(a, 1, v)`: one PCW cycle, after which the byte at `a` is `v` and no other has changed
(20_memory.md R67, R70). -/
def memWrite (s : State) (a : Addr) (v : Byte) : Except Fault State :=
  if s.params.memSize ≤ a.toNat then .error (.unimplemented a)
  else .ok ({ s with mem := s.mem.store a.toNat v }.log (.pcw a v))

/-- The end of a PCI cycle at `pc` in which the CPU accepts the byte `b`: `pc` is advanced by one, modulo
16384, where `advance` says so (10_state.md R27); `ack` marks the interrupt fetch (60_exceptions.md R233). -/
def acceptByte (advance ack : Bool) (b : Byte) (s : State) : State :=
  { s with
    pc := if advance then s.pc + 1 else s.pc
    bus := .pci s.pc b ack :: s.bus }

/-- One PCI cycle at `pc` (20_memory.md R65). `drive` is the byte the interrupt logic puts on the lines,
`none` where memory answers (60_exceptions.md R233; log 6). -/
def fetchByte (drive : Option Byte) (advance ack : Bool) (s : State) : Except Fault (Byte × State) :=
  match drive with
  | some b => .ok (b, acceptByte advance ack b s)
  | none =>
    match readByte s s.pc with
    | .ok b => .ok (b, acceptByte advance ack b s)
    | .error f => .error f

/-! ### The I/O cycle -/

/-- What an I/O unit answers to a read: the next answer State holds, or else the free oracle's
(43_io.md R222; log 7). -/
def ioReply (s : State) (ctl : BitVec 5) (out : Byte) : Byte :=
  match s.ioAnswers with
  | b :: _ => b
  | [] => Config.ioOracle s.bus ctl out

/-- `IoCycle(ctl, out)`: one PCC cycle (20_memory.md R68). A byte is input when `ctl[4:3]` is 00, and
otherwise nothing is. -/
def ioCycle (s : State) (ctl : BitVec 5) (out : Byte) : Option Byte × State :=
  if ctl.extractLsb' 3 2 = 0 then
    let b := ioReply s ctl out
    (some b, { s with ioAnswers := s.ioAnswers.tail }.log (.pcc ctl out (some b)))
  else (none, s.log (.pcc ctl out none))

/-! ### The address stack (10_state.md R30) -/

/-- The outstanding addresses, oldest first, as 95_test_vectors.md writes a stack. -/
def AddrStack.live (k : AddrStack) : List Addr := k.words.toList.take k.sp.val

/-- `push(v)` on the stack; none is StackOverflow. With STACK_POLICY = circular the eighth push discards the
oldest word (R30). -/
def AddrStack.push (policy : StackPolicy) (k : AddrStack) (v : Addr) : Option AddrStack :=
  if h : k.sp.val < 7 then
    some { words := k.words.set k.sp.val v h, sp := ⟨k.sp.val + 1, Nat.succ_lt_succ h⟩ }
  else match policy with
    | .fault => none
    | .circular =>
      some { k with words := #v[k.words[1], k.words[2], k.words[3], k.words[4], k.words[5], k.words[6], v] }

/-- `pop()` on the stack; none is StackUnderflow. With STACK_POLICY = circular a pop at depth 0 gives the word
the seven-word ring holds before word 0, and the ring turns by one (R30; log 14). -/
def AddrStack.pop (policy : StackPolicy) (k : AddrStack) : Option (Addr × AddrStack) :=
  if h : 0 < k.sp.val then
    some (k.words[k.sp.val - 1]'(by omega), { k with sp := ⟨k.sp.val - 1, by omega⟩ })
  else match policy with
    | .fault => none
    | .circular =>
      some (k.words[6],
        { k with words := #v[k.words[6], k.words[0], k.words[1], k.words[2], k.words[3], k.words[4], k.words[5]] })

/-- `push(v)` (R30). -/
def push (s : State) (v : Addr) : Except Fault State :=
  match s.stk.push s.params.stackPolicy v with
  | some k => .ok { s with stk := k }
  | none => .error (.stackOverflow s.iaddr)

/-- `pop()` (R30). -/
def pop (s : State) : Except Fault (Addr × State) :=
  match s.stk.pop s.params.stackPolicy with
  | some (v, k) => .ok (v, { s with stk := k })
  | none => .error (.stackUnderflow s.iaddr)

/-! ### The interrupt (60_exceptions.md) -/

/-- The interrupt logic's move at this instruction boundary, and the moves that remain: INT is sampled
once, as a level, and no request is remembered (R232, 10_state.md R38). -/
def sampleInt (s : State) : Option Insertion × State :=
  match s.intMoves with
  | [] => (none, s)
  | m :: rest => (m, { s with intMoves := rest })

/-- Taking the interrupt: `run` becomes RUNNING, and nothing else is saved or changed (R234, R238). The
hardware has no other exception to take (R230), and no return from one: a handler ends with RETURN
CONDITIONAL (R239). -/
def takeInterrupt (s : State) : State := { s with run := .running }

/-- The return of a subroutine or of a handler: the most recently stacked address goes to `pc`, and
nothing else is restored (R239, 42_control.md R197). -/
def returnToStacked (s : State) : Result :=
  orFault (pop s) fun (v, s1) => .next { s1 with pc := v }

end Sys2Proof.Machine
end

