-- ==== Sys2Proof/Machine/Operands.lean ====
section
/-! DEFINITION. The operand forms: the data registers, and the memory operand M (10_state.md R20 to R23). -/

namespace Sys2Proof.Machine

/-- `x[r]`: the register with code `r` (10_state.md R20). -/
def Regs.get (x : Regs) : Reg → Byte
  | .a => x.a
  | .b => x.b
  | .c => x.c
  | .d => x.d
  | .e => x.e
  | .h => x.h
  | .l => x.l

/-- `x[r] <- v` (10_state.md R20). No register is read-only or hardwired (R25). -/
def Regs.set (x : Regs) (r : Reg) (v : Byte) : Regs :=
  match r with
  | .a => { x with a := v }
  | .b => { x with b := v }
  | .c => { x with c := v }
  | .d => { x with d := v }
  | .e => { x with e := v }
  | .h => { x with h := v }
  | .l => { x with l := v }

/-- `x[r]` of the state. -/
def State.reg (s : State) (r : Reg) : Byte := s.regs.get r

/-- `x[r] <- v` on the state. -/
def State.setReg (s : State) (r : Reg) (v : Byte) : State := { s with regs := s.regs.set r v }

/-- `Maddr() = H[5:0] :: L`; bits 7 and 6 of H are ignored (20_memory.md R73). -/
def maddr (s : State) : Addr := s.regs.h.extractLsb' 0 6 ++ s.regs.l

/-- The source operand M: one PCR cycle at `Maddr()` (10_state.md R23). -/
def readM (s : State) : Except Fault (Byte × State) := memRead s (maddr s)

/-- The destination operand M: one PCW cycle at `Maddr()` (10_state.md R23). -/
def writeM (s : State) (v : Byte) : Except Fault State := memWrite s (maddr s) v

end Sys2Proof.Machine
end

