-- ==== Sys2Proof/Machine/Flags.lean ====
section
/-! DEFINITION. The function `alu`, the condition flip-flops it writes, the shift, and the conditions
(41_arithmetic.md R151, R160, R161, 42_control.md R190). -/

namespace Sys2Proof.Machine

/-- The 9-bit `t` of an operation: `a` the accumulator, `v` the operand, `cin` the carry flip-flop
(R151). -/
def aluWide (p : AluOp) (a v : Byte) (cin : Bool) : BitVec 9 :=
  let a9 := a.zeroExtend 9
  let v9 := v.zeroExtend 9
  let c9 := (BitVec.ofBool cin).zeroExtend 9
  match p with
  | .ad => a9 + v9
  | .ac => a9 + v9 + c9
  | .su => a9 - v9
  | .sb => a9 - v9 - c9
  | .nd => (a &&& v).zeroExtend 9
  | .xr => (a ^^^ v).zeroExtend 9
  | .or => (a ||| v).zeroExtend 9
  | .cp => a9 - v9

/-- PARITY: 1 when the byte has an odd number of ones (R151, 10_state.md R31). -/
def oddParity (r : Byte) : Bool :=
  r.getLsbD 7 ^^ r.getLsbD 6 ^^ r.getLsbD 5 ^^ r.getLsbD 4 ^^ r.getLsbD 3 ^^ r.getLsbD 2 ^^ r.getLsbD 1 ^^
    r.getLsbD 0

/-- The four flip-flops an operation writes, from its 9-bit `t` (R151). -/
def flagsOf (t : BitVec 9) : Flags :=
  let r := t.extractLsb' 0 8
  { c := t.getLsbD 8, z := r == 0, s := r.getLsbD 7, p := oddParity r }

/-- The result goes to A for every operation but CP, which leaves A as it was (R151). -/
def keepsResult : AluOp → Bool
  | .cp => false
  | .ad | .ac | .su | .sb | .nd | .xr | .or => true

/-- `alu(p, A, v, flag.C)` and the writes of A and of the four flip-flops (R151). -/
def aluStep (p : AluOp) (v : Byte) (s : State) : State :=
  let t := aluWide p s.regs.a v s.flags.c
  let s1 := { s with flags := flagsOf t }
  if keepsResult p then s1.setReg .a (t.extractLsb' 0 8) else s1

/-- A one-place circular shift of the accumulator, and the bit carried round (R160, R161). -/
def rotateOnce (right : Bool) (a : Byte) : Byte × Bool :=
  if right then ((a.extractLsb' 0 1 ++ a.extractLsb' 1 7 : BitVec (1 + 7)), a.getLsbD 0)
  else ((a.extractLsb' 0 7 ++ a.extractLsb' 7 1 : BitVec (7 + 1)), a.getLsbD 7)

/-- SHIFT ACCUMULATOR: A and the carry flip-flop are written, the other three keep their values. With
SHIFT_KIND not circular the two values are free (R160, R161; log 20). -/
def shiftStep (right : Bool) (s : State) : State :=
  let (a, c) := match s.params.shiftKind with
    | .circular => rotateOnce right s.regs.a
    | .other => Config.otherShift right s.regs.a s.flags.c
  { s.setReg .a a with flags := { s.flags with c := c } }

/-- `cond(cc)`: the flip-flop that a condition code selects (42_control.md R190). -/
def condFlag (cc : Cond) (f : Flags) : Bool :=
  match cc with
  | .carry => f.c
  | .zero => f.z
  | .sign => f.s
  | .parity => f.p

/-- A conditional instruction with sense bit `i` executes (42_control.md R190). -/
def executes (i : Bool) (cc : Cond) (s : State) : Bool := condFlag cc s.flags == i

end Sys2Proof.Machine
end

