-- ==== Sys2Proof/Machine/Arith.lean ====
section
/-! DEFINITION. The eight operations in their three forms, and SHIFT ACCUMULATOR (41_arithmetic.md). -/

namespace Sys2Proof.Machine

/-- The register form: the operand is `x[src]` (R150). -/
def aluReg (p : AluOp) (src : Reg) (s : State) : Result := .next (aluStep p (s.reg src) s)

/-- The memory form: the operand is read by a PCR cycle at `Maddr()` (R150). -/
def aluMem (p : AluOp) (s : State) : Result := orFault (readM s) fun (v, s1) => .next (aluStep p v s1)

/-- The immediate form: the operand is byte 2 as it stands (R150, 30_encoding.md R97). -/
def aluImm (p : AluOp) (n : Byte) (s : State) : Result := .next (aluStep p n s)

/-- `AD s` (R152). -/
def execAdS (src : Reg) (s : State) : Result := aluReg .ad src s

/-- `AD M` (R152). -/
def execAdM (s : State) : Result := aluMem .ad s

/-- `ADI n` (R152). -/
def execAdI (n : Byte) (s : State) : Result := aluImm .ad n s

/-- `AC s` (R153). -/
def execAcS (src : Reg) (s : State) : Result := aluReg .ac src s

/-- `AC M` (R153). -/
def execAcM (s : State) : Result := aluMem .ac s

/-- `ACI n` (R153). -/
def execAcI (n : Byte) (s : State) : Result := aluImm .ac n s

/-- `SU s` (R154). -/
def execSuS (src : Reg) (s : State) : Result := aluReg .su src s

/-- `SU M` (R154). -/
def execSuM (s : State) : Result := aluMem .su s

/-- `SUI n` (R154). -/
def execSuI (n : Byte) (s : State) : Result := aluImm .su n s

/-- `SB s` (R155). -/
def execSbS (src : Reg) (s : State) : Result := aluReg .sb src s

/-- `SB M` (R155). -/
def execSbM (s : State) : Result := aluMem .sb s

/-- `SBI n` (R155). -/
def execSbI (n : Byte) (s : State) : Result := aluImm .sb n s

/-- `ND s` (R156). -/
def execNdS (src : Reg) (s : State) : Result := aluReg .nd src s

/-- `ND M` (R156). -/
def execNdM (s : State) : Result := aluMem .nd s

/-- `NDI n` (R156). -/
def execNdI (n : Byte) (s : State) : Result := aluImm .nd n s

/-- `XR s` (R157). -/
def execXrS (src : Reg) (s : State) : Result := aluReg .xr src s

/-- `XR M` (R157). -/
def execXrM (s : State) : Result := aluMem .xr s

/-- `XRI n` (R157). -/
def execXrI (n : Byte) (s : State) : Result := aluImm .xr n s

/-- `OR s` (R158). -/
def execOrS (src : Reg) (s : State) : Result := aluReg .or src s

/-- `OR M` (R158). -/
def execOrM (s : State) : Result := aluMem .or s

/-- `ORI n` (R158). -/
def execOrI (n : Byte) (s : State) : Result := aluImm .or n s

/-- `CP s` (R159). -/
def execCpS (src : Reg) (s : State) : Result := aluReg .cp src s

/-- `CP M` (R159). -/
def execCpM (s : State) : Result := aluMem .cp s

/-- `CPI n` (R159). -/
def execCpI (n : Byte) (s : State) : Result := aluImm .cp n s

/-- `SHL` (R160). -/
def execShl (s : State) : Result := .next (shiftStep false s)

/-- `SHR` (R161). -/
def execShr (s : State) : Result := .next (shiftStep true s)

end Sys2Proof.Machine
end

