-- ==== Sys2Proof/WellFormed.lean ====
section
/-! DEFINITION. The check of an instruction's fields: the constraints of spec/opcode_table.json that the
types of Syntax.lean do not already hold. -/

namespace Sys2Proof

/-- An instruction's fields meet its row's constraint: IO has RR not 00 (R221), and an UNASSIGNED row
leaves out the bytes that HALT, SHL and SHR take (R102). -/
def Instr.wf : Instr → Bool
  | .io r _ => r != 0
  | .unassigned0 aaa => aaa != 0
  | .unassigned1 aaa => aaa != 0
  | .unassigned2 aaa => aaa != 0 && aaa != 1
  | .halt | .haltFF | .moveRR _ _ | .moveRM _ | .moveMR _ | .moviR _ _ | .moviM _
  | .adS _ | .adM | .adI _ | .acS _ | .acM | .acI _ | .suS _ | .suM | .suI _
  | .sbS _ | .sbM | .sbI _ | .ndS _ | .ndM | .ndI _ | .xrS _ | .xrM | .xrI _
  | .orS _ | .orM | .orI _ | .cpS _ | .cpM | .cpI _ | .shl | .shr
  | .jmp _ | .call _ | .jfc _ | .jfz _ | .jfs _ | .jfp _ | .jtc _ | .jtz _ | .jts _ | .jtp _
  | .cfc _ | .cfz _ | .cfs _ | .cfp _ | .ctc _ | .ctz _ | .cts _ | .ctp _
  | .rfc | .rfz | .rfs | .rfp | .rtc | .rtz | .rts | .rtp
  | .rst _ | .inp _ | .unassigned3 _ => true

end Sys2Proof
end

