-- ==== Sys2Proof/Decode.lean ====
section
/-! DEFINITION. The decoder, total on any bytes, and the encoder (30_encoding.md). A first byte has the
fields OP = bits 7..6, A = bits 5..3, B = bits 2..0 (R90). -/

namespace Sys2Proof

/-- Column OP of the coding table (R90). -/
def opField (b : Byte) : BitVec 2 := b.extractLsb' 6 2

/-- Column A of the coding table (R90). -/
def aField (b : Byte) : BitVec 3 := b.extractLsb' 3 3

/-- Column B of the coding table (R90). -/
def bField (b : Byte) : BitVec 3 := b.extractLsb' 0 3

/-- A first byte from its three columns (R90). -/
def firstByte (op : BitVec 2) (a b : BitVec 3) : Byte := op ++ a ++ b

/-- The register an SSS or DDD code names; none for code 7, the memory operand (R93). -/
def regOfCode (c : BitVec 3) : Option Reg :=
  match c.toNat with
  | 0 => some .a
  | 1 => some .b
  | 2 => some .c
  | 3 => some .d
  | 4 => some .e
  | 5 => some .h
  | 6 => some .l
  | _ => none

/-- The SSS or DDD code of a register (R93). -/
def Reg.code : Reg → BitVec 3
  | .a => 0
  | .b => 1
  | .c => 2
  | .d => 3
  | .e => 4
  | .h => 5
  | .l => 6

/-- The code SSS or DDD = 7 of the memory operand (R93). -/
def memCode : BitVec 3 := 7

/-- The number of bytes of an instruction, from its first byte alone (R92). -/
def lengthOf (b : Byte) : Nat :=
  if opField b = 1 ∧ b.getLsbD 0 = false then 3
  else if opField b = 0 ∧ (bField b = 4 ∨ bField b = 6) then 2
  else 1

/-- The 14-bit target of bytes 2 and 3 of a jump; the two spare bits are ignored (R98). -/
def targetOf (lowFirst : Bool) (b2 b3 : Byte) : Addr :=
  if lowFirst then b3.extractLsb' 0 6 ++ b2 else b2.extractLsb' 0 6 ++ b3

/-- `00 ppp 100`: ARITHMETIC IMMEDIATE (R94). -/
def decodeImmediate (ppp : BitVec 3) (n : Byte) : Instr :=
  match ppp.toNat with
  | 0 => .adI n
  | 1 => .acI n
  | 2 => .suI n
  | 3 => .sbI n
  | 4 => .ndI n
  | 5 => .xrI n
  | 6 => .orI n
  | _ => .cpI n

/-- `00 icc 111`: RETURN CONDITIONAL (R95, R96). -/
def decodeReturn (icc : BitVec 3) : Instr :=
  match icc.toNat with
  | 0 => .rfc
  | 1 => .rfz
  | 2 => .rfs
  | 3 => .rfp
  | 4 => .rtc
  | 5 => .rtz
  | 6 => .rts
  | _ => .rtp

/-- OP = 00: column B decides (R100). -/
def decodeOp00 (a b : BitVec 3) (n : Byte) : Instr :=
  match b.toNat with
  | 0 => if a = 0 then .halt else .unassigned0 a
  | 1 => if a = 0 then .halt else .unassigned1 a
  | 2 => if a = 0 then .shl else if a = 1 then .shr else .unassigned2 a
  | 3 => .unassigned3 a
  | 4 => decodeImmediate a n
  | 5 => .rst a
  | 6 => match regOfCode a with
    | some dst => .moviR dst n
    | none => .moviM n
  | _ => decodeReturn a

/-- `01 icc 0y0`: a conditional jump, Y = 0 or 1 (R95, R96). -/
def decodeConditional (icc : BitVec 3) (y : Bool) (t : Addr) : Instr :=
  match y, icc.toNat with
  | false, 0 => .jfc t
  | false, 1 => .jfz t
  | false, 2 => .jfs t
  | false, 3 => .jfp t
  | false, 4 => .jtc t
  | false, 5 => .jtz t
  | false, 6 => .jts t
  | false, _ => .jtp t
  | true, 0 => .cfc t
  | true, 1 => .cfz t
  | true, 2 => .cfs t
  | true, 3 => .cfp t
  | true, 4 => .ctc t
  | true, 5 => .ctz t
  | true, 6 => .cts t
  | true, _ => .ctp t

/-- `01 icc xy0`: JUMP; with X = 1 the bits I and CC select nothing (R96, R104). -/
def decodeJump (icc : BitVec 3) (x y : Bool) (t : Addr) : Instr :=
  if x then (if y then .call t else .jmp t) else decodeConditional icc y t

/-- `01 rrm mm1`: I/O CONTROL (R99). -/
def decodeIo (rr : BitVec 2) (mmm : BitVec 3) : Instr :=
  if rr = 0 then .inp mmm else .io rr mmm

/-- `10 ppp sss`: an arithmetic operation on a register or on memory (R93, R94). -/
def decodeOp10 (ppp sss : BitVec 3) : Instr :=
  match ppp.toNat, regOfCode sss with
  | 0, some src => .adS src
  | 0, none => .adM
  | 1, some src => .acS src
  | 1, none => .acM
  | 2, some src => .suS src
  | 2, none => .suM
  | 3, some src => .sbS src
  | 3, none => .sbM
  | 4, some src => .ndS src
  | 4, none => .ndM
  | 5, some src => .xrS src
  | 5, none => .xrM
  | 6, some src => .orS src
  | 6, none => .orM
  | _, some src => .cpS src
  | _, none => .cpM

/-- `11 ddd sss`: MOVE, and HALT where both codes are 7 (R93, R101). -/
def decodeOp11 (ddd sss : BitVec 3) : Instr :=
  match regOfCode ddd, regOfCode sss with
  | some dst, some src => .moveRR dst src
  | some dst, none => .moveRM dst
  | none, some src => .moveMR src
  | none, none => .haltFF

/-- The instruction of a first byte `b1` and the bytes after it; a byte beyond the instruction's
length is not looked at (R100). Every first byte has a row: the 28 unassigned ones are instructions
whose meaning is the refusal of R102. -/
def instrOf (lowFirst : Bool) (b1 b2 b3 : Byte) : Instr :=
  match (opField b1).toNat with
  | 0 => decodeOp00 (aField b1) (bField b1) b2
  | 1 =>
    if b1.getLsbD 0 then decodeIo (b1.extractLsb' 4 2) (b1.extractLsb' 1 3)
    else decodeJump (aField b1) (b1.getLsbD 2) (b1.getLsbD 1) (targetOf lowFirst b2 b3)
  | 2 => decodeOp10 (aField b1) (bField b1)
  | _ => decodeOp11 (aField b1) (bField b1)

/-- Why bytes are no instruction. -/
inductive DecodeError where
  /-- fewer bytes than the first byte asks for: `need` bytes, `have` of them there -/
  | truncated (need got : Nat)
deriving DecidableEq, Repr

/-- The instruction that a list of bytes starts with, and the bytes after it (R91, R92). -/
def decode (lowFirst : Bool) (bytes : List Byte) : Except DecodeError (Instr × List Byte) :=
  match bytes with
  | [] => .error (.truncated 1 0)
  | b1 :: rest =>
    match lengthOf b1, rest with
    | 1, tl => .ok (instrOf lowFirst b1 0 0, tl)
    | 2, b2 :: tl => .ok (instrOf lowFirst b1 b2 0, tl)
    | 3, b2 :: b3 :: tl => .ok (instrOf lowFirst b1 b2 b3, tl)
    | need, tl => .error (.truncated need (tl.length + 1))

/-- What the decoder reads from an opcode-table word: bit 0 of `w` is the least significant bit of the
first byte, a later byte's bits count on from it, and every bit at or above `nbits` is 0. The byte
order of a jump's address is the default of 00_scope.md R5. -/
def decodeTableWord (nbits w : Nat) : Option Instr :=
  let v := w % 2 ^ nbits
  match decode true [BitVec.ofNat 8 v, BitVec.ofNat 8 (v / 256), BitVec.ofNat 8 (v / 65536)] with
  | .ok (i, _) => some i
  | .error _ => none

/-! ### The encoder -/

/-- Bytes 2 and 3 of a jump to `t`, the spare bits 0 (R98, R104). -/
def targetBytes (lowFirst : Bool) (t : Addr) : List Byte :=
  let lo : Byte := t.extractLsb' 0 8
  let hi : Byte := (0 : BitVec 2) ++ t.extractLsb' 8 6
  if lowFirst then [lo, hi] else [hi, lo]

/-- The bytes of an instruction, don't-care bits 0 (R104, R106). -/
def encode (lowFirst : Bool) : Instr → List Byte
  | .halt => [firstByte 0 0 0]
  | .haltFF => [firstByte 3 7 7]
  | .moveRR dst src => [firstByte 3 dst.code src.code]
  | .moveRM dst => [firstByte 3 dst.code memCode]
  | .moveMR src => [firstByte 3 memCode src.code]
  | .moviR dst n => [firstByte 0 dst.code 6, n]
  | .moviM n => [firstByte 0 memCode 6, n]
  | .adS src => [firstByte 2 0 src.code]
  | .adM => [firstByte 2 0 memCode]
  | .adI n => [firstByte 0 0 4, n]
  | .acS src => [firstByte 2 1 src.code]
  | .acM => [firstByte 2 1 memCode]
  | .acI n => [firstByte 0 1 4, n]
  | .suS src => [firstByte 2 2 src.code]
  | .suM => [firstByte 2 2 memCode]
  | .suI n => [firstByte 0 2 4, n]
  | .sbS src => [firstByte 2 3 src.code]
  | .sbM => [firstByte 2 3 memCode]
  | .sbI n => [firstByte 0 3 4, n]
  | .ndS src => [firstByte 2 4 src.code]
  | .ndM => [firstByte 2 4 memCode]
  | .ndI n => [firstByte 0 4 4, n]
  | .xrS src => [firstByte 2 5 src.code]
  | .xrM => [firstByte 2 5 memCode]
  | .xrI n => [firstByte 0 5 4, n]
  | .orS src => [firstByte 2 6 src.code]
  | .orM => [firstByte 2 6 memCode]
  | .orI n => [firstByte 0 6 4, n]
  | .cpS src => [firstByte 2 7 src.code]
  | .cpM => [firstByte 2 7 memCode]
  | .cpI n => [firstByte 0 7 4, n]
  | .shl => [firstByte 0 0 2]
  | .shr => [firstByte 0 1 2]
  | .jmp t => firstByte 1 0 4 :: targetBytes lowFirst t
  | .call t => firstByte 1 0 6 :: targetBytes lowFirst t
  | .jfc t => firstByte 1 0 0 :: targetBytes lowFirst t
  | .jfz t => firstByte 1 1 0 :: targetBytes lowFirst t
  | .jfs t => firstByte 1 2 0 :: targetBytes lowFirst t
  | .jfp t => firstByte 1 3 0 :: targetBytes lowFirst t
  | .jtc t => firstByte 1 4 0 :: targetBytes lowFirst t
  | .jtz t => firstByte 1 5 0 :: targetBytes lowFirst t
  | .jts t => firstByte 1 6 0 :: targetBytes lowFirst t
  | .jtp t => firstByte 1 7 0 :: targetBytes lowFirst t
  | .cfc t => firstByte 1 0 2 :: targetBytes lowFirst t
  | .cfz t => firstByte 1 1 2 :: targetBytes lowFirst t
  | .cfs t => firstByte 1 2 2 :: targetBytes lowFirst t
  | .cfp t => firstByte 1 3 2 :: targetBytes lowFirst t
  | .ctc t => firstByte 1 4 2 :: targetBytes lowFirst t
  | .ctz t => firstByte 1 5 2 :: targetBytes lowFirst t
  | .cts t => firstByte 1 6 2 :: targetBytes lowFirst t
  | .ctp t => firstByte 1 7 2 :: targetBytes lowFirst t
  | .rfc => [firstByte 0 0 7]
  | .rfz => [firstByte 0 1 7]
  | .rfs => [firstByte 0 2 7]
  | .rfp => [firstByte 0 3 7]
  | .rtc => [firstByte 0 4 7]
  | .rtz => [firstByte 0 5 7]
  | .rts => [firstByte 0 6 7]
  | .rtp => [firstByte 0 7 7]
  | .rst k => [firstByte 0 k 5]
  | .inp m => [(1 : BitVec 2) ++ (0 : BitVec 2) ++ m ++ (1 : BitVec 1)]
  | .io r m => [(1 : BitVec 2) ++ r ++ m ++ (1 : BitVec 1)]
  | .unassigned0 aaa => [firstByte 0 aaa 0]
  | .unassigned1 aaa => [firstByte 0 aaa 1]
  | .unassigned2 aaa => [firstByte 0 aaa 2]
  | .unassigned3 aaa => [firstByte 0 aaa 3]

end Sys2Proof
end

