-- ==== Sys2Proof/Machine/Control.lean ====
section
/-! DEFINITION. JUMP, RETURN CONDITIONAL, HALT and RESTART (42_control.md). When a meaning runs, `pc` is
already the address after the instruction's last byte, the `next` of the rules (10_state.md R27). -/

namespace Sys2Proof.Machine

/-- A jump without stacking, where it executes (R191, R193, R194). -/
def jumpIf (taken : Bool) (t : Addr) (s : State) : Result := .next (if taken then { s with pc := t } else s)

/-- A stacking jump, where it executes: `push(next)`, then `pc <- t` (R192, R195, R196). -/
def callIf (taken : Bool) (t : Addr) (s : State) : Result :=
  if taken then orFault (push s s.pc) fun s1 => .next { s1 with pc := t } else .next s

/-- A return, where it executes (R197, R198). -/
def returnIf (taken : Bool) (s : State) : Result := if taken then returnToStacked s else .next s

/-- The CPU enters the STOPPED state (R199). -/
def stopCpu (s : State) : Result := .next { s with run := .stopped }

/-- `JMP a` (R191). -/
def execJmp (t : Addr) (s : State) : Result := jumpIf true t s

/-- `CALL a` (R192). -/
def execCall (t : Addr) (s : State) : Result := callIf true t s

/-- `JFC a` (R193). -/
def execJfc (t : Addr) (s : State) : Result := jumpIf (executes false .carry s) t s

/-- `JFZ a` (R193). -/
def execJfz (t : Addr) (s : State) : Result := jumpIf (executes false .zero s) t s

/-- `JFS a` (R193). -/
def execJfs (t : Addr) (s : State) : Result := jumpIf (executes false .sign s) t s

/-- `JFP a` (R193). -/
def execJfp (t : Addr) (s : State) : Result := jumpIf (executes false .parity s) t s

/-- `JTC a` (R194). -/
def execJtc (t : Addr) (s : State) : Result := jumpIf (executes true .carry s) t s

/-- `JTZ a` (R194). -/
def execJtz (t : Addr) (s : State) : Result := jumpIf (executes true .zero s) t s

/-- `JTS a` (R194). -/
def execJts (t : Addr) (s : State) : Result := jumpIf (executes true .sign s) t s

/-- `JTP a` (R194). -/
def execJtp (t : Addr) (s : State) : Result := jumpIf (executes true .parity s) t s

/-- `CFC a` (R195). -/
def execCfc (t : Addr) (s : State) : Result := callIf (executes false .carry s) t s

/-- `CFZ a` (R195). -/
def execCfz (t : Addr) (s : State) : Result := callIf (executes false .zero s) t s

/-- `CFS a` (R195). -/
def execCfs (t : Addr) (s : State) : Result := callIf (executes false .sign s) t s

/-- `CFP a` (R195). -/
def execCfp (t : Addr) (s : State) : Result := callIf (executes false .parity s) t s

/-- `CTC a` (R196). -/
def execCtc (t : Addr) (s : State) : Result := callIf (executes true .carry s) t s

/-- `CTZ a` (R196). -/
def execCtz (t : Addr) (s : State) : Result := callIf (executes true .zero s) t s

/-- `CTS a` (R196). -/
def execCts (t : Addr) (s : State) : Result := callIf (executes true .sign s) t s

/-- `CTP a` (R196). -/
def execCtp (t : Addr) (s : State) : Result := callIf (executes true .parity s) t s

/-- `RFC` (R197). -/
def execRfc (s : State) : Result := returnIf (executes false .carry s) s

/-- `RFZ` (R197). -/
def execRfz (s : State) : Result := returnIf (executes false .zero s) s

/-- `RFS` (R197). -/
def execRfs (s : State) : Result := returnIf (executes false .sign s) s

/-- `RFP` (R197). -/
def execRfp (s : State) : Result := returnIf (executes false .parity s) s

/-- `RTC` (R198). -/
def execRtc (s : State) : Result := returnIf (executes true .carry s) s

/-- `RTZ` (R198). -/
def execRtz (s : State) : Result := returnIf (executes true .zero s) s

/-- `RTS` (R198). -/
def execRts (s : State) : Result := returnIf (executes true .sign s) s

/-- `RTP` (R198). -/
def execRtp (s : State) : Result := returnIf (executes true .parity s) s

/-- `HALT`, `00 000 00-` (R199). -/
def execHalt (s : State) : Result := stopCpu s

/-- `HALT`, `11 111 111` (R200). -/
def execHaltFF (s : State) : Result := stopCpu s

/-- The target of RESTART: XYZ followed by RST_SHIFT zero bits (R201). -/
def restartTarget (k : BitVec 3) (shift : Nat) : Addr := k.zeroExtend 14 <<< shift

/-- `RST k`. Without the option, or while RST_PUSH is open, there is no meaning (R201, 30_encoding.md R103). -/
def execRst (k : BitVec 3) (s : State) : Result :=
  if s.params.hasRestart then
    match s.params.rstPush with
    | some pushes =>
      let t := restartTarget k s.params.rstShift
      if pushes then callIf true t s else jumpIf true t s
    | none => .refused (.restartPushOpen (firstByte 0 k 5))
  else .refused (.restartAbsent (firstByte 0 k 5))

end Sys2Proof.Machine
end

