-- ==== Sys2Proof/Machine/Io.lean ====
section
/-! DEFINITION. I/O CONTROL (43_io.md), and the unassigned first bytes (30_encoding.md R102). -/

namespace Sys2Proof.Machine

/-- One PCC cycle with the accumulator sent out; a byte that is input replaces A. No flip-flop and no memory
byte changes (20_memory.md R68, R220, R221). -/
def ioControl (ctl : BitVec 5) (s : State) : State :=
  match ioCycle s ctl s.regs.a with
  | (some b, s1) => s1.setReg .a b
  | (none, s1) => s1

/-- `INP m`: the control word is 00 :: MMM (R220). -/
def execInp (m : BitVec 3) (s : State) : Result := .next (ioControl ((0 : BitVec 2) ++ m) s)

/-- `IO r,m`: the control word is RR :: MMM (R221). -/
def execIo (r : BitVec 2) (m : BitVec 3) (s : State) : Result := .next (ioControl (r ++ m) s)

/-- An unassigned first byte: no next state (30_encoding.md R102, 92_eei_decisions.md D15). -/
def noInstruction (b : Byte) (s : State) : Result := .refused (.unassigned b s.iaddr)

/-- `00 aaa 000` (R102). -/
def execUnassigned0 (aaa : BitVec 3) (s : State) : Result := noInstruction (firstByte 0 aaa 0) s

/-- `00 aaa 001` (R102). -/
def execUnassigned1 (aaa : BitVec 3) (s : State) : Result := noInstruction (firstByte 0 aaa 1) s

/-- `00 aaa 010` (R102). -/
def execUnassigned2 (aaa : BitVec 3) (s : State) : Result := noInstruction (firstByte 0 aaa 2) s

/-- `00 aaa 011` (R102). -/
def execUnassigned3 (aaa : BitVec 3) (s : State) : Result := noInstruction (firstByte 0 aaa 3) s

end Sys2Proof.Machine
end

