-- ==== Sys2Proof/Machine/Move.lean ====
section
/-! DEFINITION. MOVE and MOVE IMMEDIATE (40_move.md). No flip-flop is written (92_eei_decisions.md D12). -/

namespace Sys2Proof.Machine

/-- `MOVE d,s` (R130). -/
def execMoveRR (dst src : Reg) (s : State) : Result := .next (s.setReg dst (s.reg src))

/-- `MOVE d,M`: the address is formed from the old H and L (R131). -/
def execMoveRM (dst : Reg) (s : State) : Result :=
  orFault (readM s) fun (v, s1) => .next (s1.setReg dst v)

/-- `MOVE M,s` (R132). -/
def execMoveMR (src : Reg) (s : State) : Result := orFault (writeM s (s.reg src)) .next

/-- `MOVI d,n` (R133). -/
def execMoviR (dst : Reg) (n : Byte) (s : State) : Result := .next (s.setReg dst n)

/-- `MOVI M,n` (R134). -/
def execMoviM (n : Byte) (s : State) : Result := orFault (writeM s n) .next

end Sys2Proof.Machine
end

