-- ==== Sys2Proof/Machine/Dispatch.lean ====
section
/-! DEFINITION. The dispatch: one arm for each constructor of Instr, each a direct call of its meaning. -/

namespace Sys2Proof.Machine

-- The state `s` is the one after the fetch: `pc` is past the instruction's bytes (30_encoding.md R108).
def exec (i : Instr) (s : State) : Host.Outcome State Fault Refusal :=
  match i with
  | .halt => Sys2Proof.Machine.execHalt s
  | .haltFF => Sys2Proof.Machine.execHaltFF s
  | .moveRR dst src => Sys2Proof.Machine.execMoveRR dst src s
  | .moveRM dst => Sys2Proof.Machine.execMoveRM dst s
  | .moveMR src => Sys2Proof.Machine.execMoveMR src s
  | .moviR dst n => Sys2Proof.Machine.execMoviR dst n s
  | .moviM n => Sys2Proof.Machine.execMoviM n s
  | .adS src => Sys2Proof.Machine.execAdS src s
  | .adM => Sys2Proof.Machine.execAdM s
  | .adI n => Sys2Proof.Machine.execAdI n s
  | .acS src => Sys2Proof.Machine.execAcS src s
  | .acM => Sys2Proof.Machine.execAcM s
  | .acI n => Sys2Proof.Machine.execAcI n s
  | .suS src => Sys2Proof.Machine.execSuS src s
  | .suM => Sys2Proof.Machine.execSuM s
  | .suI n => Sys2Proof.Machine.execSuI n s
  | .sbS src => Sys2Proof.Machine.execSbS src s
  | .sbM => Sys2Proof.Machine.execSbM s
  | .sbI n => Sys2Proof.Machine.execSbI n s
  | .ndS src => Sys2Proof.Machine.execNdS src s
  | .ndM => Sys2Proof.Machine.execNdM s
  | .ndI n => Sys2Proof.Machine.execNdI n s
  | .xrS src => Sys2Proof.Machine.execXrS src s
  | .xrM => Sys2Proof.Machine.execXrM s
  | .xrI n => Sys2Proof.Machine.execXrI n s
  | .orS src => Sys2Proof.Machine.execOrS src s
  | .orM => Sys2Proof.Machine.execOrM s
  | .orI n => Sys2Proof.Machine.execOrI n s
  | .cpS src => Sys2Proof.Machine.execCpS src s
  | .cpM => Sys2Proof.Machine.execCpM s
  | .cpI n => Sys2Proof.Machine.execCpI n s
  | .shl => Sys2Proof.Machine.execShl s
  | .shr => Sys2Proof.Machine.execShr s
  | .jmp t => Sys2Proof.Machine.execJmp t s
  | .call t => Sys2Proof.Machine.execCall t s
  | .jfc t => Sys2Proof.Machine.execJfc t s
  | .jfz t => Sys2Proof.Machine.execJfz t s
  | .jfs t => Sys2Proof.Machine.execJfs t s
  | .jfp t => Sys2Proof.Machine.execJfp t s
  | .jtc t => Sys2Proof.Machine.execJtc t s
  | .jtz t => Sys2Proof.Machine.execJtz t s
  | .jts t => Sys2Proof.Machine.execJts t s
  | .jtp t => Sys2Proof.Machine.execJtp t s
  | .cfc t => Sys2Proof.Machine.execCfc t s
  | .cfz t => Sys2Proof.Machine.execCfz t s
  | .cfs t => Sys2Proof.Machine.execCfs t s
  | .cfp t => Sys2Proof.Machine.execCfp t s
  | .ctc t => Sys2Proof.Machine.execCtc t s
  | .ctz t => Sys2Proof.Machine.execCtz t s
  | .cts t => Sys2Proof.Machine.execCts t s
  | .ctp t => Sys2Proof.Machine.execCtp t s
  | .rfc => Sys2Proof.Machine.execRfc s
  | .rfz => Sys2Proof.Machine.execRfz s
  | .rfs => Sys2Proof.Machine.execRfs s
  | .rfp => Sys2Proof.Machine.execRfp s
  | .rtc => Sys2Proof.Machine.execRtc s
  | .rtz => Sys2Proof.Machine.execRtz s
  | .rts => Sys2Proof.Machine.execRts s
  | .rtp => Sys2Proof.Machine.execRtp s
  | .rst k => Sys2Proof.Machine.execRst k s
  | .inp m => Sys2Proof.Machine.execInp m s
  | .io r m => Sys2Proof.Machine.execIo r m s
  | .unassigned0 aaa => Sys2Proof.Machine.execUnassigned0 aaa s
  | .unassigned1 aaa => Sys2Proof.Machine.execUnassigned1 aaa s
  | .unassigned2 aaa => Sys2Proof.Machine.execUnassigned2 aaa s
  | .unassigned3 aaa => Sys2Proof.Machine.execUnassigned3 aaa s

end Sys2Proof.Machine
end

