-- ==== Sys2Proof/Machine/Fetch.lean ====
section
/-! DEFINITION. The instruction sequence up to the point where the instruction's rule is performed
(30_encoding.md R108), and the placing of an instruction's bytes where the next fetch finds them. -/

namespace Sys2Proof.Machine

/-- What an instruction boundary leads to. -/
inductive Fetched where
  /-- no instruction: the CPU stays STOPPED (10_state.md R33) -/
  | idle (s : State)
  /-- an instruction whose bytes have all been fetched -/
  | instr (i : Instr) (s : State)
  /-- a fetch found no byte -/
  | stop (f : Fault)

/-- The instruction register takes the first byte `b1`, fetched with address `at0` put out; then the
later bytes that `b1` asks for are fetched, each by an ordinary PCI cycle (R91, R92, R108). `drive2` and
`drive3` are the bytes the interrupt logic supplies for an inserted instruction (60_exceptions.md R235). -/
def fetchRest (b1 : Byte) (at0 : Addr) (drive2 drive3 : Option Byte) (advance : Bool) (s : State) : Fetched :=
  let s1 := { s with ir := b1, iaddr := at0 }
  let lowFirst := s.params.addrLowFirst
  match lengthOf b1 with
  | 1 => .instr (instrOf lowFirst b1 0 0) s1
  | 2 =>
    match fetchByte drive2 advance false s1 with
    | .error f => .stop f
    | .ok (b2, s2) => .instr (instrOf lowFirst b1 b2 0) s2
  | _ =>
    match fetchByte drive2 advance false s1 with
    | .error f => .stop f
    | .ok (b2, s2) =>
      match fetchByte drive3 advance false s2 with
      | .error f => .stop f
      | .ok (b3, s3) => .instr (instrOf lowFirst b1 b2 b3) s3

/-- The ordinary sequence: every byte comes from memory at `pc`, which advances by one for each
(10_state.md R26, R27). -/
def fetchFromMemory (s : State) : Fetched :=
  match fetchByte none true false s with
  | .error f => .stop f
  | .ok (b1, s1) => fetchRest b1 s.pc none none true s1

/-- The interrupt sequence: `run` becomes RUNNING, the first byte is the inserted one and `pc` is not
advanced for it; later bytes advance `pc` as INT_OPERAND_ADVANCE says (60_exceptions.md R233 to R235). -/
def fetchInserted (ins : Insertion) (s : State) : Fetched :=
  match fetchByte ins.byte1 false true (takeInterrupt s) with
  | .error f => .stop f
  | .ok (b1, s1) => fetchRest b1 s.pc ins.byte2 ins.byte3 s.params.intOperandAdvance s1

/-- One instruction boundary: INT is sampled; a request wins the fetch; without one a STOPPED CPU does
nothing (30_encoding.md R108, 60_exceptions.md R232, R234, R237). -/
def nextInstr (s : State) : Fetched :=
  match sampleInt s with
  | (some ins, s1) => fetchInserted ins s1
  | (none, s1) =>
    match s1.run with
    | .stopped => .idle s1
    | .running => fetchFromMemory s1

/-- The insertion of the bytes of an instruction; a byte it does not have is not driven (60_exceptions.md R233,
R235). -/
def Insertion.ofBytes (bytes : List Byte) : Insertion :=
  { byte1 := bytes[0]?, byte2 := bytes[1]?, byte3 := bytes[2]? }

/-- The premise of a launch that wants the fixed entry `e`: at the first instruction boundary INT is enabled and
`JMP e` is inserted, and INT is then withdrawn (70_reset_and_hazards.md R262, R263). -/
def entryMoves (lowFirst : Bool) (e : Addr) : List (Option Insertion) :=
  [some (Insertion.ofBytes (encode lowFirst (.jmp e)))]

/-- Memory with the bytes of an opcode-table word at `pc` and the two addresses after it, every bit of the
word at or above `nbits` 0. -/
def placeWord (m : Memory) (pc : Addr) (nbits w : Nat) : Memory :=
  let v := w % 2 ^ nbits
  ((m.store pc.toNat (BitVec.ofNat 8 v)).store (pc + 1).toNat (BitVec.ofNat 8 (v / 256))).store
    (pc + 2).toNat (BitVec.ofNat 8 (v / 65536))

/-- The machine set so that the next step fetches that word from memory at `pc`: RUNNING, and INT not enabled
at the next instruction boundary (log 4). -/
def placeInstr (s : State) (nbits w : Nat) : State :=
  { s with
    mem := placeWord s.mem s.pc nbits w
    run := .running
    intMoves := none :: s.intMoves }

end Sys2Proof.Machine
end

