-- ==== Sys2Proof/Machine/Step.lean ====
section
/-! DEFINITION. One step of the machine: one instruction boundary and the instruction it leads to
(30_encoding.md R108). -/

namespace Sys2Proof.Machine

/-- One step (R108). A STOPPED CPU without a request steps to itself (60_exceptions.md R234; log 36). -/
def step (s : State) : Host.Outcome State Fault Refusal :=
  match nextInstr s with
  | .idle s1 => .next s1
  | .instr i s1 => exec i s1
  | .stop f => .fault f

/-- The state with an opcode-table word stored where the next step fetches its instruction (log 4). -/
def State.withFetchWord (s : State) (nbits w : Nat) : State := placeInstr s nbits w

end Sys2Proof.Machine
end

