-- ==== Sys2Proof/Machine/Lines.lean ====
section
/-! DEFINITION. What the lines D7 to D0 and the leads S1 S2 carry in each transfer of a bus cycle, as a view
of the history in State (20_memory.md R62 to R68). The WAIT state has no place in it, since the model has
no time (R69; log 27). -/

namespace Sys2Proof.Machine

/-- The four states the leads S1 S2 tell the outside (R63). -/
inductive BusState where
  | wait | other | synch | intrptSynch
deriving DecidableEq, Repr

/-- The code on S1 S2, S1 the high bit (R63). -/
def BusState.code : BusState → BitVec 2
  | .wait => 0b00
  | .other => 0b10
  | .synch => 0b01
  | .intrptSynch => 0b11

/-- The cycle type on D7 D6 at synch time (R62). -/
def BusCycle.typeCode : BusCycle → BitVec 2
  | .pci .. => 0b00
  | .pcr .. => 0b10
  | .pcw .. => 0b11
  | .pcc .. => 0b01

/-- One transfer: the S1 S2 state, the byte on the lines, and whether the CPU drives it. -/
structure Transfer where
  state : BusState
  lines : Byte
  fromCpu : Bool
deriving DecidableEq, Repr

/-- ADDRESS 1: the cycle type and the high-order 6 address bits (R64). -/
def address1 (c : BusCycle) (st : BusState) (a : Addr) : Transfer :=
  { state := st, lines := c.typeCode ++ a.extractLsb' 8 6, fromCpu := true }

/-- ADDRESS 2: the low-order 8 address bits (R64). -/
def address2 (a : Addr) : Transfer := { state := .other, lines := a.extractLsb' 0 8, fromCpu := true }

/-- The data transfer that ends a cycle. -/
def dataTransfer (b : Byte) (fromCpu : Bool) : Transfer := { state := .other, lines := b, fromCpu := fromCpu }

/-- The transfers of the `n`th bus cycle, in order. Line D0 of a PCC cycle's first transfer is a free bit
(R65 to R68; log 33). -/
def BusCycle.transfers (n : Nat) (c : BusCycle) : List Transfer :=
  match c with
  | .pci a b ack => [address1 c (if ack then .intrptSynch else .synch) a, address2 a, dataTransfer b false]
  | .pcr a b => [address1 c .synch a, address2 a, dataTransfer b false]
  | .pcw a b => [address1 c .synch a, address2 a, dataTransfer b true]
  | .pcc ctl out inp =>
    [{ state := .synch
       lines := ((c.typeCode ++ ctl : BitVec (2 + 5)) ++ BitVec.ofBool (Config.pccD0 n) : BitVec (2 + 5 + 1))
       fromCpu := true },
     dataTransfer out true] ++ inp.toList.map (dataTransfer · false)

/-- Every transfer the CPU has taken part in, oldest first. -/
def State.transfers (s : State) : List Transfer :=
  (s.bus.reverse.zipIdx).flatMap fun (c, n) => c.transfers n

end Sys2Proof.Machine
end

