-- ==== Sys2Proof/Machine/Table.lean ====
section
/-! DEFINITION. The rows of spec/opcode_table.json, in its order: the mask and the match of the first byte.
The decoder does not use them; a statement holds it against them (30_encoding.md R101). -/

namespace Sys2Proof.Machine

/-- One row: a first byte belongs to it when its bits under `mask` are those of `pattern`. -/
structure OpcodeRow where
  mnemonic : String
  pattern : Byte
  mask : Byte
deriving DecidableEq, Repr

/-- The byte belongs to the row. -/
def OpcodeRow.matches (r : OpcodeRow) (b : Byte) : Bool := b &&& r.mask == r.pattern

/-- The number of mask bits, by which rows take priority (R101). -/
def OpcodeRow.maskBits (r : OpcodeRow) : Nat := ((List.range 8).filter (r.mask.getLsbD ·)).length

/-- Rows 0 to 6: HALT and the moves. -/
def moveRows : List OpcodeRow :=
  [⟨"HALT", 0x00, 0xFE⟩,
   ⟨"HALT", 0xFF, 0xFF⟩,
   ⟨"MOVE_d_s", 0xC0, 0xC0⟩,
   ⟨"MOVE_d_M", 0xC7, 0xC7⟩,
   ⟨"MOVE_M_s", 0xF8, 0xF8⟩,
   ⟨"MOVI_d_n", 0x06, 0xC7⟩,
   ⟨"MOVI_M_n", 0x3E, 0xFF⟩]

/-- Rows 7 to 32: the eight operations and the shifts. -/
def operationRows : List OpcodeRow :=
  [⟨"AD_s", 0x80, 0xF8⟩,
   ⟨"AD_M", 0x87, 0xFF⟩,
   ⟨"ADI_n", 0x04, 0xFF⟩,
   ⟨"AC_s", 0x88, 0xF8⟩,
   ⟨"AC_M", 0x8F, 0xFF⟩,
   ⟨"ACI_n", 0x0C, 0xFF⟩,
   ⟨"SU_s", 0x90, 0xF8⟩,
   ⟨"SU_M", 0x97, 0xFF⟩,
   ⟨"SUI_n", 0x14, 0xFF⟩,
   ⟨"SB_s", 0x98, 0xF8⟩,
   ⟨"SB_M", 0x9F, 0xFF⟩,
   ⟨"SBI_n", 0x1C, 0xFF⟩,
   ⟨"ND_s", 0xA0, 0xF8⟩,
   ⟨"ND_M", 0xA7, 0xFF⟩,
   ⟨"NDI_n", 0x24, 0xFF⟩,
   ⟨"XR_s", 0xA8, 0xF8⟩,
   ⟨"XR_M", 0xAF, 0xFF⟩,
   ⟨"XRI_n", 0x2C, 0xFF⟩,
   ⟨"OR_s", 0xB0, 0xF8⟩,
   ⟨"OR_M", 0xB7, 0xFF⟩,
   ⟨"ORI_n", 0x34, 0xFF⟩,
   ⟨"CP_s", 0xB8, 0xF8⟩,
   ⟨"CP_M", 0xBF, 0xFF⟩,
   ⟨"CPI_n", 0x3C, 0xFF⟩,
   ⟨"SHL", 0x02, 0xFF⟩,
   ⟨"SHR", 0x0A, 0xFF⟩]

/-- Rows 33 to 50: the jumps. -/
def jumpRows : List OpcodeRow :=
  [⟨"JMP_a", 0x44, 0xC7⟩,
   ⟨"CALL_a", 0x46, 0xC7⟩,
   ⟨"JFC_a", 0x40, 0xFF⟩,
   ⟨"JFZ_a", 0x48, 0xFF⟩,
   ⟨"JFS_a", 0x50, 0xFF⟩,
   ⟨"JFP_a", 0x58, 0xFF⟩,
   ⟨"JTC_a", 0x60, 0xFF⟩,
   ⟨"JTZ_a", 0x68, 0xFF⟩,
   ⟨"JTS_a", 0x70, 0xFF⟩,
   ⟨"JTP_a", 0x78, 0xFF⟩,
   ⟨"CFC_a", 0x42, 0xFF⟩,
   ⟨"CFZ_a", 0x4A, 0xFF⟩,
   ⟨"CFS_a", 0x52, 0xFF⟩,
   ⟨"CFP_a", 0x5A, 0xFF⟩,
   ⟨"CTC_a", 0x62, 0xFF⟩,
   ⟨"CTZ_a", 0x6A, 0xFF⟩,
   ⟨"CTS_a", 0x72, 0xFF⟩,
   ⟨"CTP_a", 0x7A, 0xFF⟩]

/-- Rows 51 to 65: the returns, RESTART, I/O CONTROL and the unassigned bytes. -/
def otherRows : List OpcodeRow :=
  [⟨"RFC", 0x07, 0xFF⟩,
   ⟨"RFZ", 0x0F, 0xFF⟩,
   ⟨"RFS", 0x17, 0xFF⟩,
   ⟨"RFP", 0x1F, 0xFF⟩,
   ⟨"RTC", 0x27, 0xFF⟩,
   ⟨"RTZ", 0x2F, 0xFF⟩,
   ⟨"RTS", 0x37, 0xFF⟩,
   ⟨"RTP", 0x3F, 0xFF⟩,
   ⟨"RST_k", 0x05, 0xC7⟩,
   ⟨"INP_m", 0x41, 0xF1⟩,
   ⟨"IO_r_m", 0x41, 0xC1⟩,
   ⟨"UNASSIGNED", 0x00, 0xC7⟩,
   ⟨"UNASSIGNED", 0x01, 0xC7⟩,
   ⟨"UNASSIGNED", 0x02, 0xC7⟩,
   ⟨"UNASSIGNED", 0x03, 0xC7⟩]

/-- The whole table. -/
def opcodeRows : List OpcodeRow := moveRows ++ operationRows ++ jumpRows ++ otherRows

/-- The row an instruction's constructor stands for. -/
def rowOf : Instr → Nat
  | .halt => 0
  | .haltFF => 1
  | .moveRR _ _ => 2
  | .moveRM _ => 3
  | .moveMR _ => 4
  | .moviR _ _ => 5
  | .moviM _ => 6
  | .adS _ => 7
  | .adM => 8
  | .adI _ => 9
  | .acS _ => 10
  | .acM => 11
  | .acI _ => 12
  | .suS _ => 13
  | .suM => 14
  | .suI _ => 15
  | .sbS _ => 16
  | .sbM => 17
  | .sbI _ => 18
  | .ndS _ => 19
  | .ndM => 20
  | .ndI _ => 21
  | .xrS _ => 22
  | .xrM => 23
  | .xrI _ => 24
  | .orS _ => 25
  | .orM => 26
  | .orI _ => 27
  | .cpS _ => 28
  | .cpM => 29
  | .cpI _ => 30
  | .shl => 31
  | .shr => 32
  | .jmp _ => 33
  | .call _ => 34
  | .jfc _ => 35
  | .jfz _ => 36
  | .jfs _ => 37
  | .jfp _ => 38
  | .jtc _ => 39
  | .jtz _ => 40
  | .jts _ => 41
  | .jtp _ => 42
  | .cfc _ => 43
  | .cfz _ => 44
  | .cfs _ => 45
  | .cfp _ => 46
  | .ctc _ => 47
  | .ctz _ => 48
  | .cts _ => 49
  | .ctp _ => 50
  | .rfc => 51
  | .rfz => 52
  | .rfs => 53
  | .rfp => 54
  | .rtc => 55
  | .rtz => 56
  | .rts => 57
  | .rtp => 58
  | .rst _ => 59
  | .inp _ => 60
  | .io _ _ => 61
  | .unassigned0 _ => 62
  | .unassigned1 _ => 63
  | .unassigned2 _ => 64
  | .unassigned3 _ => 65

end Sys2Proof.Machine
end

