-- ==== Sys2Proof/Safety.lean ====
section
/-! DEFINITION. The terms the statements use: the invariant of every step, what a fetched state is, what each
instruction may change, and the values the rules of 41_arithmetic.md give. -/

namespace Sys2Proof.Machine

/-! ### The invariant -/

/-- Memory is in canonical form and every written byte lies in implemented memory (20_memory.md R60, R75). -/
abbrev State.memoryInv (s : State) : Prop :=
  s.mem.wf ∧ ∀ c ∈ s.mem, c.1 < s.params.memSize ∧ c.1 < 16384

/-! ### Decoding -/

/-- The instruction a list of bytes starts with, if the decoder reads one. -/
def firstInstr (lowFirst : Bool) (bytes : List Byte) : Option Instr :=
  match decode lowFirst bytes with
  | .ok (i, _) => some i
  | .error _ => none

/-! ### Fetching -/

/-- INT is not enabled at the coming instruction boundary. -/
def State.noRequest (s : State) : Bool := (sampleInt s).1.isNone

/-- The bytes `bs` can be fetched from memory at `a` and the addresses after it, modulo 16384. -/
def State.holds (s : State) (a : Addr) : List Byte → Prop
  | [] => True
  | b :: bs => readByte s a = .ok b ∧ s.holds (a + 1) bs

/-- The PCI cycles that fetch `bs` from `a` on, newest first. -/
def fetchCycles (a : Addr) : List Byte → List BusCycle
  | [] => []
  | b :: bs => fetchCycles (a + 1) bs ++ [.pci a b false]

/-- The state in which an instruction fetched from memory is performed: `pc` past its bytes `b1 :: bs`
(10_state.md R27). -/
def State.afterFetch (s : State) (b1 : Byte) (bs : List Byte) : State :=
  { s with
    pc := s.pc + 1 + BitVec.ofNat 14 bs.length
    ir := b1
    iaddr := s.pc
    intMoves := s.intMoves.tail
    bus := fetchCycles s.pc (b1 :: bs) ++ s.bus }

/-- The byte a PCI cycle at `a` brings: the one the interrupt logic drives, or, where it drives none, the one
memory answers (60_exceptions.md R233; log 6). -/
def State.supplied (s : State) (a : Addr) : Option Byte → Except Fault Byte
  | some b => .ok b
  | none => readByte s a

/-- The address of the operand byte after one at `a` in an inserted instruction (60_exceptions.md R235). -/
def State.nextOperand (s : State) (a : Addr) : Addr := if s.params.intOperandAdvance then a + 1 else a

/-- The PCI cycles from `a` on bring the bytes `bs`, the interrupt logic offering `drives`; offers beyond `bs`
do not matter. -/
def State.supplies (s : State) (a : Addr) : List (Option Byte) → List Byte → Prop
  | _, [] => True
  | [], _ :: _ => False
  | d :: drives, b :: bs => s.supplied a d = .ok b ∧ s.supplies (s.nextOperand a) drives bs

/-- The PCI cycles for the later bytes of an inserted instruction, newest first: their addresses rise only
where INT_OPERAND_ADVANCE is true (60_exceptions.md R235). -/
def insertedCycles (advance : Bool) (a : Addr) : List Byte → List BusCycle
  | [] => []
  | b :: bs => insertedCycles advance (if advance then a + 1 else a) bs ++ [.pci a b false]

/-- The state in which an inserted instruction is performed: RUNNING, `pc` advanced by its later bytes only
(60_exceptions.md R233 to R235). -/
def State.afterInsert (s : State) (b1 : Byte) (bs : List Byte) : State :=
  { s with
    pc := if s.params.intOperandAdvance then s.pc + BitVec.ofNat 14 bs.length else s.pc
    run := .running
    ir := b1
    iaddr := s.pc
    intMoves := s.intMoves.tail
    bus := insertedCycles s.params.intOperandAdvance s.pc bs ++ .pci s.pc b1 true :: s.bus }

/-! ### What an instruction may change -/

/-- How an instruction writes `pc` and the stack (10_state.md R28, R29). -/
inductive Flow where
  /-- it leaves both alone -/
  | straight
  /-- a jump to `target`, with its sense bit and condition if it is conditional; `y` is its bit Y -/
  | jump (condition : Option (Bool × Cond)) (y : Bool) (target : Addr)
  /-- a return, with its sense bit and condition -/
  | ret (sense : Bool) (cc : Cond)
  /-- RESTART -/
  | restart (k : BitVec 3)
deriving DecidableEq, Repr

/-- The flow of each instruction. -/
def flowOf : Instr → Flow
  | .jmp t => .jump none false t
  | .call t => .jump none true t
  | .jfc t => .jump (some (false, .carry)) false t
  | .jfz t => .jump (some (false, .zero)) false t
  | .jfs t => .jump (some (false, .sign)) false t
  | .jfp t => .jump (some (false, .parity)) false t
  | .jtc t => .jump (some (true, .carry)) false t
  | .jtz t => .jump (some (true, .zero)) false t
  | .jts t => .jump (some (true, .sign)) false t
  | .jtp t => .jump (some (true, .parity)) false t
  | .cfc t => .jump (some (false, .carry)) true t
  | .cfz t => .jump (some (false, .zero)) true t
  | .cfs t => .jump (some (false, .sign)) true t
  | .cfp t => .jump (some (false, .parity)) true t
  | .ctc t => .jump (some (true, .carry)) true t
  | .ctz t => .jump (some (true, .zero)) true t
  | .cts t => .jump (some (true, .sign)) true t
  | .ctp t => .jump (some (true, .parity)) true t
  | .rfc => .ret false .carry
  | .rfz => .ret false .zero
  | .rfs => .ret false .sign
  | .rfp => .ret false .parity
  | .rtc => .ret true .carry
  | .rtz => .ret true .zero
  | .rts => .ret true .sign
  | .rtp => .ret true .parity
  | .rst k => .restart k
  | .halt | .haltFF | .moveRR _ _ | .moveRM _ | .moveMR _ | .moviR _ _ | .moviM _
  | .adS _ | .adM | .adI _ | .acS _ | .acM | .acI _ | .suS _ | .suM | .suI _
  | .sbS _ | .sbM | .sbI _ | .ndS _ | .ndM | .ndI _ | .xrS _ | .xrM | .xrI _
  | .orS _ | .orM | .orI _ | .cpS _ | .cpM | .cpI _ | .shl | .shr | .inp _ | .io _ _
  | .unassigned0 _ | .unassigned1 _ | .unassigned2 _ | .unassigned3 _ => .straight

/-- The data register an instruction writes, if it writes one (10_state.md R25). -/
def writesReg : Instr → Option Reg
  | .moveRR dst _ | .moveRM dst | .moviR dst _ => some dst
  | .adS _ | .adM | .adI _ | .acS _ | .acM | .acI _ | .suS _ | .suM | .suI _
  | .sbS _ | .sbM | .sbI _ | .ndS _ | .ndM | .ndI _ | .xrS _ | .xrM | .xrI _
  | .orS _ | .orM | .orI _ | .shl | .shr | .inp _ => some .a
  | .io r _ => if r = 0 then some .a else none
  | .halt | .haltFF | .moveMR _ | .moviM _ | .cpS _ | .cpM | .cpI _
  | .jmp _ | .call _ | .jfc _ | .jfz _ | .jfs _ | .jfp _ | .jtc _ | .jtz _ | .jts _ | .jtp _
  | .cfc _ | .cfz _ | .cfs _ | .cfp _ | .ctc _ | .ctz _ | .cts _ | .ctp _
  | .rfc | .rfz | .rfs | .rfp | .rtc | .rtz | .rts | .rtp | .rst _
  | .unassigned0 _ | .unassigned1 _ | .unassigned2 _ | .unassigned3 _ => none

/-- Which flip-flops an instruction writes (10_state.md R32). -/
inductive FlagWrite where
  | nothing | carryOnly | allFour
deriving DecidableEq, Repr

/-- The flip-flops each instruction writes (10_state.md R32). -/
def writesFlags : Instr → FlagWrite
  | .adS _ | .adM | .adI _ | .acS _ | .acM | .acI _ | .suS _ | .suM | .suI _
  | .sbS _ | .sbM | .sbI _ | .ndS _ | .ndM | .ndI _ | .xrS _ | .xrM | .xrI _
  | .orS _ | .orM | .orI _ | .cpS _ | .cpM | .cpI _ => .allFour
  | .shl | .shr => .carryOnly
  | .halt | .haltFF | .moveRR _ _ | .moveRM _ | .moveMR _ | .moviR _ _ | .moviM _
  | .jmp _ | .call _ | .jfc _ | .jfz _ | .jfs _ | .jfp _ | .jtc _ | .jtz _ | .jts _ | .jtp _
  | .cfc _ | .cfz _ | .cfs _ | .cfp _ | .ctc _ | .ctz _ | .cts _ | .ctp _
  | .rfc | .rfz | .rfs | .rfp | .rtc | .rtz | .rts | .rtp | .rst _ | .inp _ | .io _ _
  | .unassigned0 _ | .unassigned1 _ | .unassigned2 _ | .unassigned3 _ => .nothing

/-- The address an instruction stores to, if it stores (40_move.md R132, R134). -/
def storesTo (i : Instr) (s : State) : Option Addr :=
  match i with
  | .moveMR _ | .moviM _ => some (maddr s)
  | .halt | .haltFF | .moveRR _ _ | .moveRM _ | .moviR _ _
  | .adS _ | .adM | .adI _ | .acS _ | .acM | .acI _ | .suS _ | .suM | .suI _
  | .sbS _ | .sbM | .sbI _ | .ndS _ | .ndM | .ndI _ | .xrS _ | .xrM | .xrI _
  | .orS _ | .orM | .orI _ | .cpS _ | .cpM | .cpI _ | .shl | .shr
  | .jmp _ | .call _ | .jfc _ | .jfz _ | .jfs _ | .jfp _ | .jtc _ | .jtz _ | .jts _ | .jtp _
  | .cfc _ | .cfz _ | .cfs _ | .cfp _ | .ctc _ | .ctz _ | .cts _ | .ctp _
  | .rfc | .rfz | .rfs | .rfp | .rtc | .rtz | .rts | .rtp | .rst _ | .inp _ | .io _ _
  | .unassigned0 _ | .unassigned1 _ | .unassigned2 _ | .unassigned3 _ => none

/-- The instruction is a jump or a return that executes in `s`, or RESTART: the instructions that write `pc`
(10_state.md R28). -/
def writesPc (i : Instr) (s : State) : Bool :=
  match flowOf i with
  | .straight => false
  | .jump none _ _ => true
  | .jump (some (sense, cc)) _ _ => condFlag cc s.flags == sense
  | .ret sense cc => condFlag cc s.flags == sense
  | .restart _ => true

/-- The instruction is one that writes the stack: a jump with Y = 1, or RESTART (10_state.md R29). -/
def mayPush (i : Instr) : Bool :=
  match flowOf i with
  | .jump _ y _ => y
  | .restart _ => true
  | .straight | .ret _ _ => false

/-- The instruction is RETURN CONDITIONAL, the one that reads the stack (10_state.md R29). -/
def isReturn (i : Instr) : Bool :=
  match flowOf i with
  | .ret _ _ => true
  | .straight | .jump _ _ _ | .restart _ => false

/-! ### The stack -/

/-- A push has a defined effect: a free word, or STACK_POLICY = circular (10_state.md R30). -/
abbrev State.canPush (s : State) : Prop := s.stk.sp.val < 7 ∨ s.params.stackPolicy = .circular

/-- A pop has a defined effect: an outstanding address, or STACK_POLICY = circular (10_state.md R30). -/
abbrev State.canPop (s : State) : Prop := 0 < s.stk.sp.val ∨ s.params.stackPolicy = .circular

/-- `n` pops in a row under STACK_POLICY = circular, and the last word popped. -/
def AddrStack.popTimes (n : Nat) (k : AddrStack) : Option (Addr × AddrStack) :=
  match n with
  | 0 => none
  | 1 => k.pop .circular
  | n + 2 => match k.pop .circular with
    | some (_, k1) => AddrStack.popTimes (n + 1) k1
    | none => none

/-! ### The values of the arithmetic rules -/

/-- The number of one bits of a byte. -/
def oneBits (r : Byte) : Nat := ((List.range 8).filter (r.getLsbD ·)).length

/-- The flip-flops that describe the result `r`, with carry `c` (41_arithmetic.md R151). -/
def resultFlags (r : Byte) (c : Bool) : Flags :=
  { c := c, z := decide (r.toNat = 0), s := decide (128 ≤ r.toNat), p := decide (oneBits r % 2 = 1) }

/-- The state after an operation whose result `r` goes to A (41_arithmetic.md R151). -/
def State.withResult (s : State) (r : Byte) (c : Bool) : State :=
  { s with regs := { s.regs with a := r }, flags := resultFlags r c }

/-- The state after a compare: only the flip-flops are written (41_arithmetic.md R159). -/
def State.withCompare (s : State) (r : Byte) (c : Bool) : State := { s with flags := resultFlags r c }

/-- An operation's three forms complete with `res`, the new state for an operand value, and the memory form
stops exactly where its read does (41_arithmetic.md R150). -/
def OperationForms (reg : Reg → Instr) (memory : Instr) (immediate : Byte → Instr)
    (res : State → Byte → State) : Prop :=
  ∀ s : State,
    (∀ r, exec (reg r) s = .next (res s (s.regs.get r))) ∧
    (∀ n, exec (immediate n) s = .next (res s n)) ∧
    (∀ b, readByte s (maddr s) = .ok b → exec memory s = .next (res (s.log (.pcr (maddr s) b)) b)) ∧
    (∀ f, readByte s (maddr s) = .error f → exec memory s = .fault f)

/-- A jump without stacking: it goes to its target exactly where `taken` holds, and otherwise leaves the state
as the fetch left it (42_control.md R191, R193, R194). -/
def JumpForm (jump : Addr → Instr) (taken : State → Bool) : Prop :=
  ∀ (s : State) (t : Addr), exec (jump t) s = .next (if taken s then { s with pc := t } else s)

/-- The jump has the first byte `b1`; fetched from memory at `pc` it goes to the target of bytes 2 and 3 where
`taken` holds, and to the address after its three bytes otherwise (42_control.md R193, R194). -/
def JumpStep (b1 : Byte) (jump : Addr → Instr) (taken : State → Bool) : Prop :=
  (∀ (lowFirst : Bool) (b2 b3 : Byte),
    decode lowFirst [b1, b2, b3] = .ok (jump (targetOf lowFirst b2 b3), [])) ∧
  ∀ (s : State) (b2 b3 : Byte),
    s.run = .running → s.noRequest = true → s.holds s.pc [b1, b2, b3] →
    step s = .next { s.afterFetch b1 [b2, b3] with
      pc := if taken s then targetOf s.params.addrLowFirst b2 b3 else s.pc + 3 }

/-- A stacking jump: where `taken` holds it stacks `pc` and goes to its target, or stops with StackOverflow;
otherwise it leaves the state as the fetch left it (42_control.md R192, R195, R196). -/
def CallForm (jump : Addr → Instr) (taken : State → Bool) : Prop :=
  ∀ (s : State) (t : Addr),
    (taken s = true → s.canPush →
      ∃ k, s.stk.push s.params.stackPolicy s.pc = some k ∧ exec (jump t) s = .next { s with stk := k, pc := t }) ∧
    (taken s = true → ¬ s.canPush → exec (jump t) s = .fault (.stackOverflow s.iaddr)) ∧
    (taken s = false → exec (jump t) s = .next s)

/-- A return: where `taken` holds it pops an address into `pc`, or stops with StackUnderflow; otherwise it
leaves the state as the fetch left it (42_control.md R197, R198). -/
def ReturnForm (i : Instr) (taken : State → Bool) : Prop :=
  ∀ s : State,
    (taken s = true → s.canPop →
      ∃ v k, s.stk.pop s.params.stackPolicy = some (v, k) ∧ exec i s = .next { s with stk := k, pc := v }) ∧
    (taken s = true → ¬ s.canPop → exec i s = .fault (.stackUnderflow s.iaddr)) ∧
    (taken s = false → exec i s = .next s)

/-! ### The history and memory -/

/-- Memory after the PCW cycles of a history (newest first) on an earlier memory (20_memory.md R67, R76). -/
def replay (history : List BusCycle) (m : Memory) : Memory :=
  match history with
  | [] => m
  | .pcw a b :: older => (replay older m).store a.toNat b
  | .pci _ _ _ :: older => replay older m
  | .pcr _ _ :: older => replay older m
  | .pcc _ _ _ :: older => replay older m

/-- Every PCR cycle of the history read what memory held at that time, and so did every PCI cycle where
`fetches` is asked for (20_memory.md R76). -/
def readsExplained (fetches : Bool) (history : List BusCycle) (m : Memory) : Prop :=
  match history with
  | [] => True
  | .pcr a b :: older => (replay older m).byteAt a.toNat = some b ∧ readsExplained fetches older m
  | .pci a b _ :: older =>
    (fetches = true → (replay older m).byteAt a.toNat = some b) ∧ readsExplained fetches older m
  | .pcw _ _ :: older => readsExplained fetches older m
  | .pcc _ _ _ :: older => readsExplained fetches older m

/-- A PCC cycle. -/
def BusCycle.isPcc : BusCycle → Bool
  | .pcc _ _ _ => true
  | .pci _ _ _ | .pcr _ _ | .pcw _ _ => false

/-- I/O CONTROL. -/
def isIo : Instr → Bool
  | .inp _ | .io _ _ => true
  | .halt | .haltFF | .moveRR _ _ | .moveRM _ | .moveMR _ | .moviR _ _ | .moviM _
  | .adS _ | .adM | .adI _ | .acS _ | .acM | .acI _ | .suS _ | .suM | .suI _
  | .sbS _ | .sbM | .sbI _ | .ndS _ | .ndM | .ndI _ | .xrS _ | .xrM | .xrI _
  | .orS _ | .orM | .orI _ | .cpS _ | .cpM | .cpI _ | .shl | .shr
  | .jmp _ | .call _ | .jfc _ | .jfz _ | .jfs _ | .jfp _ | .jtc _ | .jtz _ | .jts _ | .jtp _
  | .cfc _ | .cfz _ | .cfs _ | .cfp _ | .ctc _ | .ctz _ | .cts _ | .ctp _
  | .rfc | .rfz | .rfs | .rfp | .rtc | .rtz | .rts | .rtp | .rst _
  | .unassigned0 _ | .unassigned1 _ | .unassigned2 _ | .unassigned3 _ => false

/-- What an outcome is when a function is applied to its next state. -/
def mapNext (f : State → State) : Result → Result
  | .next t => .next (f t)
  | .fault r => .fault r
  | .refused r => .refused r

end Sys2Proof.Machine
end

