-- ==== Sys2Proof/Certificates/Slice0/Obligations.lean ====
section
/-! DEFINITION. The statements for the provers: properties of this model, from the rules of spec/. -/

open Sys2Proof Sys2Proof.Machine

/-- The encoding of every row, with every operand (30_encoding.md sections 1 to 6; the byte order of a jump's
address is the spec's decision D4, log 11). -/
def Obligations.DecodeEncodeRoundTrip : Prop :=
  ∀ (lowFirst : Bool) (i : Instr) (rest : List Byte), i.wf = true →
    decode lowFirst (encode lowFirst i ++ rest) = .ok (i, rest)

/-- The lengths of 30_encoding.md section 2, over all bytes. -/
def Obligations.DecodedInstructionsAreWellFormed : Prop :=
  ∀ (lowFirst : Bool) (b1 : Byte) (tl : List Byte),
    (∀ i rest, decode lowFirst (b1 :: tl) = .ok (i, rest) →
      i.wf = true ∧ lengthOf b1 ≤ tl.length + 1 ∧ rest = (b1 :: tl).drop (lengthOf b1)) ∧
    (lengthOf b1 ≤ tl.length + 1 → ∃ i rest, decode lowFirst (b1 :: tl) = .ok (i, rest)) ∧
    (tl.length + 1 < lengthOf b1 → decode lowFirst (b1 :: tl) = .error (.truncated (lengthOf b1) (tl.length + 1)))

/-- The don't-care bits (30_encoding.md section 5). That they are ignored is the spec's decision D27 and D4
(log 28, log 11). -/
def Obligations.DecoderIgnoresDontCareBits : Prop :=
  ∀ (lowFirst : Bool) (b1 lo hi hi' : Byte) (icc : BitVec 3),
    decode lowFirst [0x00] = .ok (.halt, []) ∧ decode lowFirst [0x01] = .ok (.halt, []) ∧
    instrOf lowFirst (firstByte 1 icc 4) lo hi = instrOf lowFirst 0x44 lo hi ∧
    instrOf lowFirst (firstByte 1 icc 6) lo hi = instrOf lowFirst 0x46 lo hi ∧
    (hi.extractLsb' 0 6 = hi'.extractLsb' 0 6 → opField b1 = 1 →
      instrOf true b1 lo hi = instrOf true b1 lo hi' ∧ instrOf false b1 hi lo = instrOf false b1 hi' lo)

/-- The priority of the rows of the opcode table (30_encoding.md section 4, "most mask bits first"). -/
def Obligations.DecoderTakesTheMostSpecificRow : Prop :=
  ∀ (lowFirst : Bool) (b1 b2 b3 : Byte),
    ∃ row, opcodeRows[rowOf (instrOf lowFirst b1 b2 b3)]? = some row ∧ row.matches b1 = true ∧
      ∀ j other, opcodeRows[j]? = some other → j ≠ rowOf (instrOf lowFirst b1 b2 b3) →
        other.matches b1 = true → other.maskBits < row.maskBits

/-- The opcode map (R100), byte by byte. The 28 unassigned bytes are instructions whose meaning is a refusal. -/
def Obligations.FirstByteMap : Prop :=
  ∀ (lowFirst : Bool) (b2 b3 : Byte),
    (∀ dst src : Reg, firstInstr lowFirst [firstByte 3 dst.code src.code, b2, b3] = some (.moveRR dst src)) ∧
    (∀ dst : Reg, firstInstr lowFirst [firstByte 3 dst.code 7, b2, b3] = some (.moveRM dst)) ∧
    (∀ src : Reg, firstInstr lowFirst [firstByte 3 7 src.code, b2, b3] = some (.moveMR src)) ∧
    firstInstr lowFirst [0xFF, b2, b3] = some .haltFF ∧
    (∀ src : Reg, firstInstr lowFirst [firstByte 2 0 src.code, b2, b3] = some (.adS src)) ∧
    firstInstr lowFirst [0x87, b2, b3] = some .adM ∧
    firstInstr lowFirst [0x04, b2, b3] = some (.adI b2) ∧
    (∀ src : Reg, firstInstr lowFirst [firstByte 2 1 src.code, b2, b3] = some (.acS src)) ∧
    firstInstr lowFirst [0x8F, b2, b3] = some .acM ∧
    firstInstr lowFirst [0x0C, b2, b3] = some (.acI b2) ∧
    (∀ src : Reg, firstInstr lowFirst [firstByte 2 2 src.code, b2, b3] = some (.suS src)) ∧
    firstInstr lowFirst [0x97, b2, b3] = some .suM ∧
    firstInstr lowFirst [0x14, b2, b3] = some (.suI b2) ∧
    (∀ src : Reg, firstInstr lowFirst [firstByte 2 3 src.code, b2, b3] = some (.sbS src)) ∧
    firstInstr lowFirst [0x9F, b2, b3] = some .sbM ∧
    firstInstr lowFirst [0x1C, b2, b3] = some (.sbI b2) ∧
    (∀ src : Reg, firstInstr lowFirst [firstByte 2 4 src.code, b2, b3] = some (.ndS src)) ∧
    firstInstr lowFirst [0xA7, b2, b3] = some .ndM ∧
    firstInstr lowFirst [0x24, b2, b3] = some (.ndI b2) ∧
    (∀ src : Reg, firstInstr lowFirst [firstByte 2 5 src.code, b2, b3] = some (.xrS src)) ∧
    firstInstr lowFirst [0xAF, b2, b3] = some .xrM ∧
    firstInstr lowFirst [0x2C, b2, b3] = some (.xrI b2) ∧
    (∀ src : Reg, firstInstr lowFirst [firstByte 2 6 src.code, b2, b3] = some (.orS src)) ∧
    firstInstr lowFirst [0xB7, b2, b3] = some .orM ∧
    firstInstr lowFirst [0x34, b2, b3] = some (.orI b2) ∧
    (∀ src : Reg, firstInstr lowFirst [firstByte 2 7 src.code, b2, b3] = some (.cpS src)) ∧
    firstInstr lowFirst [0xBF, b2, b3] = some .cpM ∧
    firstInstr lowFirst [0x3C, b2, b3] = some (.cpI b2) ∧
    (∀ m : BitVec 3, firstInstr lowFirst [0x41 + (m.zeroExtend 8 <<< 1), b2, b3] = some (.inp m)) ∧
    (∀ (r : BitVec 2) (m : BitVec 3), r ≠ 0 →
      firstInstr lowFirst [0x41 + (r.zeroExtend 8 <<< 4) + (m.zeroExtend 8 <<< 1), b2, b3] = some (.io r m)) ∧
    firstInstr lowFirst [0x40, b2, b3] = some (.jfc (targetOf lowFirst b2 b3)) ∧
    firstInstr lowFirst [0x60, b2, b3] = some (.jtc (targetOf lowFirst b2 b3)) ∧
    firstInstr lowFirst [0x42, b2, b3] = some (.cfc (targetOf lowFirst b2 b3)) ∧
    firstInstr lowFirst [0x62, b2, b3] = some (.ctc (targetOf lowFirst b2 b3)) ∧
    firstInstr lowFirst [0x07, b2, b3] = some .rfc ∧
    firstInstr lowFirst [0x27, b2, b3] = some .rtc ∧
    firstInstr lowFirst [0x48, b2, b3] = some (.jfz (targetOf lowFirst b2 b3)) ∧
    firstInstr lowFirst [0x68, b2, b3] = some (.jtz (targetOf lowFirst b2 b3)) ∧
    firstInstr lowFirst [0x4A, b2, b3] = some (.cfz (targetOf lowFirst b2 b3)) ∧
    firstInstr lowFirst [0x6A, b2, b3] = some (.ctz (targetOf lowFirst b2 b3)) ∧
    firstInstr lowFirst [0x0F, b2, b3] = some .rfz ∧
    firstInstr lowFirst [0x2F, b2, b3] = some .rtz ∧
    firstInstr lowFirst [0x50, b2, b3] = some (.jfs (targetOf lowFirst b2 b3)) ∧
    firstInstr lowFirst [0x70, b2, b3] = some (.jts (targetOf lowFirst b2 b3)) ∧
    firstInstr lowFirst [0x52, b2, b3] = some (.cfs (targetOf lowFirst b2 b3)) ∧
    firstInstr lowFirst [0x72, b2, b3] = some (.cts (targetOf lowFirst b2 b3)) ∧
    firstInstr lowFirst [0x17, b2, b3] = some .rfs ∧
    firstInstr lowFirst [0x37, b2, b3] = some .rts ∧
    firstInstr lowFirst [0x58, b2, b3] = some (.jfp (targetOf lowFirst b2 b3)) ∧
    firstInstr lowFirst [0x78, b2, b3] = some (.jtp (targetOf lowFirst b2 b3)) ∧
    firstInstr lowFirst [0x5A, b2, b3] = some (.cfp (targetOf lowFirst b2 b3)) ∧
    firstInstr lowFirst [0x7A, b2, b3] = some (.ctp (targetOf lowFirst b2 b3)) ∧
    firstInstr lowFirst [0x1F, b2, b3] = some .rfp ∧
    firstInstr lowFirst [0x3F, b2, b3] = some .rtp ∧
    (∀ icc : BitVec 3, firstInstr lowFirst [0x44 + (icc.zeroExtend 8 <<< 3), b2, b3] = some (.jmp (targetOf lowFirst b2 b3))) ∧
    (∀ icc : BitVec 3, firstInstr lowFirst [0x46 + (icc.zeroExtend 8 <<< 3), b2, b3] = some (.call (targetOf lowFirst b2 b3))) ∧
    firstInstr lowFirst [0x00, b2, b3] = some .halt ∧
    firstInstr lowFirst [0x01, b2, b3] = some .halt ∧
    firstInstr lowFirst [0x02, b2, b3] = some .shl ∧
    firstInstr lowFirst [0x0A, b2, b3] = some .shr ∧
    (∀ dst : Reg, firstInstr lowFirst [firstByte 0 dst.code 6, b2, b3] = some (.moviR dst b2)) ∧
    firstInstr lowFirst [0x3E, b2, b3] = some (.moviM b2) ∧
    (∀ k : BitVec 3, firstInstr lowFirst [0x05 + (k.zeroExtend 8 <<< 3), b2, b3] = some (.rst k)) ∧
    (∀ a : BitVec 3, a ≠ 0 → firstInstr lowFirst [firstByte 0 a 0, b2, b3] = some (.unassigned0 a) ∧
      firstInstr lowFirst [firstByte 0 a 1, b2, b3] = some (.unassigned1 a)) ∧
    (∀ a : BitVec 3, 2 ≤ a.toNat → firstInstr lowFirst [firstByte 0 a 2, b2, b3] = some (.unassigned2 a)) ∧
    (∀ a : BitVec 3, firstInstr lowFirst [firstByte 0 a 3, b2, b3] = some (.unassigned3 a))

/-- A sanity statement: words of 95_test_vectors.md section 2.1, the jump under the default byte order (log 11). -/
def Obligations.WrittenWordsDecode : Prop :=
  firstInstr true [0b10001001] = some (.acS .b) ∧ firstInstr true [0b10010111] = some .suM ∧
    firstInstr true [0b10111110] = some (.cpS .l) ∧ firstInstr true [0b11000000] = some (.moveRR .a .a) ∧
    firstInstr true [0b11100101] = some (.moveRR .e .h) ∧ firstInstr true [0b11110111] = some (.moveRM .l) ∧
    firstInstr true [0b11111110] = some (.moveMR .l) ∧ firstInstr true [0b01011101] = some (.io 1 6) ∧
    firstInstr true [0b01111111] = some (.io 3 7) ∧ firstInstr true [0b01001111] = some (.inp 7) ∧
    firstInstr true [0b01111100, 0x23, 0xC1] = some (.jmp 0x0123) ∧
    firstInstr true [0b01111010, 0x40, 0x00] = some (.ctp 0x0040) ∧ firstInstr true [0b00111111] = some .rtp ∧
    firstInstr true [0b00101110, 0x2A] = some (.moviR .h 0x2A) ∧
    firstInstr true [0b00111100, 0x42] = some (.cpI 0x42) ∧ firstInstr true [0b00011101] = some (.rst 3)

/-- The read-after-write law of memory contents (20_memory.md sections 2 and 4). -/
def Obligations.MemoryReadAfterWrite : Prop :=
  ∀ (m : Memory) (a b : Nat) (v : Byte),
    (Memory.store m a v).byteAt b = if b = a then some v else Memory.byteAt m b

/-- The primitives of 20_memory.md section 2. The two stops are the spec's decisions D18 and D29 (log 25, 2), and the
wrap of pc is decision D3 (log 10). -/
def Obligations.MemoryPrimitives : Prop :=
  ∀ (s : State) (a : Addr) (v : Byte),
    (a.toNat < s.params.memSize →
      (∀ b, s.mem.byteAt a.toNat = some b → memRead s a = .ok (b, { s with bus := .pcr a b :: s.bus })) ∧
      (s.mem.byteAt a.toNat = none → memRead s a = .error (.unwrittenRead a)) ∧
      (∃ m, memWrite s a v = .ok { s with mem := m, bus := .pcw a v :: s.bus } ∧
        m.byteAt a.toNat = some v ∧ ∀ x : Nat, x ≠ a.toNat → m.byteAt x = s.mem.byteAt x)) ∧
    (s.params.memSize ≤ a.toNat →
      memRead s a = .error (.unimplemented a) ∧ memWrite s a v = .error (.unimplemented a)) ∧
    (s.pc.toNat < s.params.memSize →
      (∀ b, s.mem.byteAt s.pc.toNat = some b → ∃ p : Addr, p.toNat = (s.pc.toNat + 1) % 16384 ∧
        fetchByte none true false s = .ok (b, { s with pc := p, bus := .pci s.pc b false :: s.bus })) ∧
      (s.mem.byteAt s.pc.toNat = none → fetchByte none true false s = .error (.unwrittenRead s.pc))) ∧
    (s.params.memSize ≤ s.pc.toNat → fetchByte none true false s = .error (.unimplemented s.pc))

/-- The cycles of 20_memory.md section 2 and the interrupt fetch. Where the address bits and the command sit at
synch time is an inference of the spec (R64, log 33); nothing is said of D0 of a PCC cycle. -/
def Obligations.TransfersOfEachCycle : Prop :=
  ∀ (n : Nat) (a : Addr) (b out : Byte) (ack : Bool) (ctl : BitVec 5) (inp : Option Byte),
    (BusState.code .wait = 0 ∧ BusState.code .other = 2 ∧ BusState.code .synch = 1 ∧
      BusState.code .intrptSynch = 3) ∧
    (∃ x y, (BusCycle.pci a b ack).transfers n =
        [⟨if ack then .intrptSynch else .synch, x, true⟩, ⟨.other, y, true⟩, ⟨.other, b, false⟩] ∧
      x.toNat = a.toNat / 256 ∧ y.toNat = a.toNat % 256) ∧
    (∃ x y, (BusCycle.pcr a b).transfers n =
        [⟨.synch, x, true⟩, ⟨.other, y, true⟩, ⟨.other, b, false⟩] ∧
      x.toNat = 128 + a.toNat / 256 ∧ y.toNat = a.toNat % 256) ∧
    (∃ x y, (BusCycle.pcw a b).transfers n =
        [⟨.synch, x, true⟩, ⟨.other, y, true⟩, ⟨.other, b, true⟩] ∧
      x.toNat = 192 + a.toNat / 256 ∧ y.toNat = a.toNat % 256) ∧
    (∃ x, (BusCycle.pcc ctl out inp).transfers n =
        ⟨.synch, x, true⟩ :: ⟨.other, out, true⟩ :: inp.toList.map (⟨.other, ·, false⟩) ∧
      x.toNat / 2 = 32 + ctl.toNat)

/-- The instruction sequence (30_encoding.md section 7). The wrap of pc is decision D3 (log 10); that ir and iaddr are
kept, that a move is used up and how the cycles are listed is the model's choice (log 31, 5, 32). -/
def Obligations.StepRunsTheFetchedInstruction : Prop :=
  ∀ (s : State) (b1 : Byte) (bs : List Byte) (i : Instr),
    s.run = .running → s.noRequest = true → s.holds s.pc (b1 :: bs) →
    decode s.params.addrLowFirst (b1 :: bs) = .ok (i, []) →
    step s = exec i (s.afterFetch b1 bs)

/-- The interrupt fetch (60_exceptions.md section 3). The list of moves is the model's form of the environment (log 5).
Where the later bytes come from and whether they advance pc is the spec's decision D21, and that memory answers a
later byte that is not driven is the model's inference (log 6, DEDUCED); that ir and iaddr are kept and how the
cycles are listed is the model's choice (log 31, 32). -/
def Obligations.StepInsertsAnInstruction : Prop :=
  ∀ (s : State) (ins : Insertion) (moves : List (Option Insertion)), s.intMoves = some ins :: moves →
    (∀ (b1 : Byte) (bs : List Byte) (i : Instr),
      s.supplied s.pc ins.byte1 = .ok b1 → s.supplies s.pc [ins.byte2, ins.byte3] bs →
      decode s.params.addrLowFirst (b1 :: bs) = .ok (i, []) → step s = exec i (s.afterInsert b1 bs)) ∧
    (∀ f, s.supplied s.pc ins.byte1 = .error f → step s = .fault f) ∧
    (∀ b1 f, s.supplied s.pc ins.byte1 = .ok b1 → 2 ≤ lengthOf b1 → s.supplied s.pc ins.byte2 = .error f →
      step s = .fault f) ∧
    (∀ b1 b2 f, s.supplied s.pc ins.byte1 = .ok b1 → lengthOf b1 = 3 → s.supplied s.pc ins.byte2 = .ok b2 →
      s.supplied (s.nextOperand s.pc) ins.byte3 = .error f → step s = .fault f)

/-- The two operating conditions (10_state.md R33). That a STOPPED CPU without INT steps to itself, one move used up, is
the model's choice, not the spec's (log 36, DESIGN CHOICE). -/
def Obligations.RunConditionChanges : Prop :=
  (∀ s t : State, step s = .next t →
      (s.run = .running → t.run = .stopped → ∃ i u, nextInstr s = .instr i u ∧ (i = .halt ∨ i = .haltFF)) ∧
      (s.run = .stopped → t.run = .running → s.noRequest = false) ∧
      (s.run = .running → s.noRequest = true →
        ∃ i u, nextInstr s = .instr i u ∧ exec i u = .next t ∧ u.iaddr = s.pc ∧ readByte s s.pc = .ok u.ir)) ∧
    (∀ s : State, s.run = .stopped → s.noRequest = true → step s = .next { s with intMoves := s.intMoves.tail })

/-- Stopping from outside (R249). -/
def Obligations.InsertedHaltStops : Prop :=
  ∀ (s : State) (b : Byte) (d2 d3 : Option Byte) (moves : List (Option Insertion)),
    (b = 0x00 ∨ b = 0x01 ∨ b = 0xFF) → s.intMoves = some ⟨some b, d2, d3⟩ :: moves →
    step s = .next { s with
      run := .stopped
      ir := b
      iaddr := s.pc
      intMoves := moves
      bus := .pci s.pc b true :: s.bus }

/-- Two of the three insertions the source names; the third is InsertedHaltStops. That the NO-OP is MOVE r,r is
the spec's inference (R105). -/
def Obligations.NamedInsertions : Prop :=
  ∀ (s : State) (moves : List (Option Insertion)),
    (∀ (r : Reg) (d2 d3 : Option Byte), s.intMoves = some ⟨some (firstByte 3 r.code r.code), d2, d3⟩ :: moves →
      ∃ t, step s = .next t ∧ t.run = .running ∧ t.pc = s.pc ∧ t.regs = s.regs ∧ t.flags = s.flags ∧
        t.stk = s.stk ∧ t.mem = s.mem) ∧
    (s.intMoves = some ⟨some 0x44, some 0x00, some 0x00⟩ :: moves →
      ∃ t, step s = .next t ∧ t.run = .running ∧ t.pc = 0 ∧ t.regs = s.regs ∧ t.flags = s.flags ∧
        t.stk = s.stk ∧ t.mem = s.mem)

/-- The consequence the spec draws from decision D21 (60_exceptions.md section 3; log 6). -/
def Obligations.InsertedCallStacksTwoPast : Prop :=
  ∀ (s : State) (b2 b3 : Byte) (moves : List (Option Insertion)),
    s.intMoves = some ⟨some 0x46, some b2, some b3⟩ :: moves → s.canPush →
    ∃ t k, step s = .next t ∧ t.run = .running ∧ t.pc = targetOf s.params.addrLowFirst b2 b3 ∧ t.stk = k ∧
      s.stk.push s.params.stackPolicy (if s.params.intOperandAdvance then s.pc + 2 else s.pc) = some k

/-- The writers of the program counter (10_state.md R27, R28), the interrupt fetch taken where the step takes it. That
the later bytes of an inserted instruction advance pc is the spec's decision D21 (log 6), the wrap of pc decision D3
(log 10). -/
def Obligations.ProgramCounterWriters : Prop :=
  (∀ (i : Instr) (s t : State), exec i s = .next t → t.pc ≠ s.pc → writesPc i s = true) ∧
    (∀ (drive : Option Byte) (s t : State) (b : Byte), fetchByte drive false true s = .ok (b, t) → t.pc = s.pc) ∧
    (∀ (s u : State) (i : Instr) (ins : Insertion) (moves : List (Option Insertion)),
      s.intMoves = some ins :: moves → nextInstr s = .instr i u →
      ∃ later, u.bus = later ++ .pci s.pc u.ir true :: s.bus ∧ later.length + 1 = lengthOf u.ir ∧
        (∀ c, later.getLast? = some c → ∃ b, c = .pci s.pc b false) ∧
        u.pc = (if s.params.intOperandAdvance then s.pc + BitVec.ofNat 14 later.length else s.pc)) ∧
    (∀ (s u : State) (i : Instr), s.noRequest = true → nextInstr s = .instr i u →
      u.pc = s.pc + BitVec.ofNat 14 (lengthOf u.ir))

/-- The launch state and its first step (70_reset_and_hazards.md R262, R263; decision D19, log 4) and the defaults of
00_scope.md section 4 (log 3). That the environment is two lists is the model's form (log 5, 7); the later bytes of an
inserted jump are decision D21 (log 6), their order D4 (log 11). Nothing is said of the values the model chose for
registers (log 1). -/
def Obligations.ResetState : Prop :=
  (∀ (p : Params) (pc : Addr) (image : Memory) (moves : List (Option Insertion)) (answers : List Byte),
      (State.launch p pc image moves answers).run = p.initRun ∧ (State.launch p pc image moves answers).pc = pc ∧
      (State.launch p pc image moves answers).stk.sp = 0 ∧ (State.launch p pc image moves answers).mem = image ∧
      (State.launch p pc image moves answers).bus = [] ∧ (State.launch p pc image moves answers).params = p ∧
      (State.launch p pc image moves answers).intMoves = moves ∧
      (State.launch p pc image moves answers).ioAnswers = answers) ∧
    (∀ (p : Params) (pc e : Addr) (image : Memory) (answers : List Byte),
      ∃ t, step (State.launch p pc image (entryMoves p.addrLowFirst e) answers) = .next t ∧
        t = { (State.launch p pc image (entryMoves p.addrLowFirst e) answers).afterInsert 0x44
                (targetBytes p.addrLowFirst e) with pc := e } ∧
        t.run = .running ∧ t.pc = e ∧ t.noRequest = true ∧ t.mem = image ∧ t.stk.sp = 0) ∧
    State.reset.run = .stopped ∧ State.reset.stk.sp = 0 ∧ State.reset.mem = [] ∧
    State.reset.params = ⟨16384, true, .fault, false, 2, none, true, .circular, .stopped⟩

/-- The invariant at reset. -/
def Obligations.ResetMemoryInvariant : Prop :=
  State.reset.memoryInv

/-- The invariant every step keeps: from any state, not only from reset. -/
def Obligations.StepKeepsMemoryInvariant : Prop :=
  ∀ s t : State, s.memoryInv → step s = .next t → t.memoryInv

/-- Parameters are fixed (log 3) and the history only grows (log 32). -/
def Obligations.StepKeepsParameters : Prop :=
  ∀ s t : State, step s = .next t →
    t.params = s.params ∧ (∃ new, t.bus = new ++ s.bus ∧ (s.run = .running ∨ s.noRequest = false → new ≠ []))

/-- Memory consistency and instruction-fetch coherence over whole runs (20_memory.md section 4, an inference of the
spec and decisions D24, D25; log 26). -/
def Obligations.HistoryExplainsMemory : Prop :=
  ∀ (k : Nat) (s t : State), Host.Core.run Sys2Proof.core k s = .next t →
    ∃ new, t.bus = new ++ s.bus ∧ t.mem = replay new s.mem ∧
      readsExplained (s.intMoves.all Option.isNone) new s.mem

/-- The register frame of every instruction (10_state.md section 2). -/
def Obligations.RegisterWriters : Prop :=
  ∀ (i : Instr) (s t : State) (r : Reg), exec i s = .next t → writesReg i ≠ some r → t.regs.get r = s.regs.get r

/-- The flip-flop frame of every instruction; who writes them is decisions D11, D12 (log 17, 18). -/
def Obligations.FlipFlopWriters : Prop :=
  ∀ (i : Instr) (s t : State), exec i s = .next t →
    (writesFlags i ≠ .allFour → t.flags.z = s.flags.z ∧ t.flags.s = s.flags.s ∧ t.flags.p = s.flags.p) ∧
    (writesFlags i = .nothing → t.flags = s.flags)

/-- The memory frame of every instruction, through the model's read of one byte. -/
def Obligations.MemoryWriters : Prop :=
  ∀ (i : Instr) (s t : State), exec i s = .next t →
    (∀ a : Addr, storesTo i s ≠ some a → readByte t a = readByte s a) ∧
    (∀ src : Reg, i = .moveMR src → readByte t (maddr s) = .ok (s.regs.get src)) ∧
    (∀ n : Byte, i = .moviM n → readByte t (maddr s) = .ok n)

/-- The stack is inside the CPU and not addressable (10_state.md section 4). -/
def Obligations.StackIsPrivateToCallsAndReturns : Prop :=
  ∀ (i : Instr) (s : State) (k : AddrStack), mayPush i = false → isReturn i = false →
    exec i { s with stk := k } = mapNext (fun t => { t with stk := k }) (exec i s) ∧
    (∀ t, exec i s = .next t → t.stk = s.stk)

/-- The rest of every instruction's frame. The clause on run is 10_state.md R33. The others are about fields whose form
is the model's choice, not the spec's: ir and iaddr (10_state.md R34, log 31, DESIGN CHOICE), the list of moves
(60_exceptions.md R232, log 5, DESIGN CHOICE), the parameters (00_scope.md R5, log 3, DESIGN CHOICE) and the list of
I/O answers (43_io.md R222, log 7, DESIGN CHOICE). -/
def Obligations.OtherStateFrame : Prop :=
  ∀ (i : Instr) (s t : State), exec i s = .next t →
    t.ir = s.ir ∧ t.iaddr = s.iaddr ∧ t.intMoves = s.intMoves ∧ t.params = s.params ∧
    (i ≠ .halt → i ≠ .haltFF → t.run = s.run) ∧ (isIo i = false → t.ioAnswers = s.ioAnswers)

/-- The separation of the I/O space from memory (43_io.md R220, R221, R223, 20_memory.md R62, R68). That no other
instruction uses up an answer is about the list of answers, which is the model's choice (log 7, DESIGN CHOICE). -/
def Obligations.IoSeparation : Prop :=
  (∀ (i : Instr) (s t : State), exec i s = .next t →
      (isIo i = true → t.mem = s.mem ∧ ∃ ctl out inp, t.bus = .pcc ctl out inp :: s.bus) ∧
      (isIo i = false → t.ioAnswers = s.ioAnswers ∧ ∃ new, t.bus = new ++ s.bus ∧ ∀ c ∈ new, c.isPcc = false)) ∧
    (∀ (lowFirst : Bool) (b1 b2 b3 : Byte), opField b1 = 1 →
      (b1.getLsbD 0 = true → isIo (instrOf lowFirst b1 b2 b3) = true) ∧
      (b1.getLsbD 0 = false → ∃ c y t, flowOf (instrOf lowFirst b1 b2 b3) = .jump c y t))

/-- MOVE d,s (40_move.md; that it copies and writes no flip-flop is decisions D28, D12; log 29, 18). -/
def Obligations.MoveRegisterToRegister : Prop :=
  ∀ (s : State) (dst src : Reg),
    (∃ x, exec (.moveRR dst src) s = .next { s with regs := x } ∧ x.get dst = s.regs.get src ∧
      ∀ r, r ≠ dst → x.get r = s.regs.get r) ∧
    exec (.moveRR src src) s = .next s

/-- MOVE d,M (40_move.md); the address is decision D2 (log 9). -/
def Obligations.MoveMemoryToRegister : Prop :=
  ∀ (s : State) (dst : Reg),
    (maddr s).toNat = s.regs.h.toNat % 64 * 256 + s.regs.l.toNat ∧
    (∀ b, readByte s (maddr s) = .ok b →
      ∃ x, exec (.moveRM dst) s = .next { s with regs := x, bus := .pcr (maddr s) b :: s.bus } ∧
        x.get dst = b ∧ ∀ r, r ≠ dst → x.get r = s.regs.get r) ∧
    (∀ f, readByte s (maddr s) = .error f → exec (.moveRM dst) s = .fault f)

/-- MOVE M,s (40_move.md). -/
def Obligations.MoveRegisterToMemory : Prop :=
  ∀ (s : State) (src : Reg),
    ((maddr s).toNat < s.params.memSize →
      ∃ m, exec (.moveMR src) s = .next { s with mem := m, bus := .pcw (maddr s) (s.regs.get src) :: s.bus } ∧
        m.byteAt (maddr s).toNat = some (s.regs.get src) ∧
        ∀ x : Nat, x ≠ (maddr s).toNat → m.byteAt x = s.mem.byteAt x) ∧
    (s.params.memSize ≤ (maddr s).toNat → exec (.moveMR src) s = .fault (.unimplemented (maddr s)))

/-- MOVI d,n (R133). -/
def Obligations.MoveImmediateToRegister : Prop :=
  ∀ (s : State) (dst : Reg) (n : Byte),
    decode s.params.addrLowFirst [firstByte 0 dst.code 6, n] = .ok (.moviR dst n, []) ∧
    (∃ x, exec (.moviR dst n) s = .next { s with regs := x } ∧ x.get dst = n ∧
      ∀ r, r ≠ dst → x.get r = s.regs.get r) ∧
    (s.run = .running → s.noRequest = true → s.holds s.pc [firstByte 0 dst.code 6, n] →
      ∃ t, step s = .next t ∧ t.regs.get dst = n ∧ t.pc = s.pc + 2 ∧ t.flags = s.flags ∧ t.mem = s.mem ∧
        t.bus = .pci (s.pc + 1) n false :: .pci s.pc (firstByte 0 dst.code 6) false :: s.bus ∧
        ∀ r, r ≠ dst → t.regs.get r = s.regs.get r)

/-- MOVI M,n (40_move.md); that 0x3E is admitted is decision D17 (log 24). -/
def Obligations.MoveImmediateToMemory : Prop :=
  ∀ (s : State) (n : Byte),
    ((maddr s).toNat < s.params.memSize →
      ∃ m, exec (.moviM n) s = .next { s with mem := m, bus := .pcw (maddr s) n :: s.bus } ∧
        m.byteAt (maddr s).toNat = some n ∧ (∀ x : Nat, x ≠ (maddr s).toNat → m.byteAt x = s.mem.byteAt x) ∧
        (s.mem.byteAt (maddr s).toNat = some n → ∀ x : Nat, m.byteAt x = s.mem.byteAt x)) ∧
    (s.params.memSize ≤ (maddr s).toNat → exec (.moviM n) s = .fault (.unimplemented (maddr s)))

/-- AD in its three forms (41_arithmetic.md sections 2 and 3; decisions D7 to D11, log 15, 16, 17). -/
def Obligations.AddForms : Prop :=
  OperationForms .adS .adM .adI fun s v =>
    s.withResult (s.regs.a + v) (decide (255 < s.regs.a.toNat + v.toNat))

/-- AC in its three forms (41_arithmetic.md sections 2 and 3; decisions D7 to D11, log 15, 16, 17). -/
def Obligations.AddWithCarryForms : Prop :=
  OperationForms .acS .acM .acI fun s v =>
    s.withResult (BitVec.ofNat 8 (s.regs.a.toNat + v.toNat + s.flags.c.toNat))
      (decide (255 < s.regs.a.toNat + v.toNat + s.flags.c.toNat))

/-- SU in its three forms (41_arithmetic.md sections 2 and 3; decisions D7 to D11, log 15, 16, 17). -/
def Obligations.SubtractForms : Prop :=
  OperationForms .suS .suM .suI fun s v =>
    s.withResult (s.regs.a - v) (decide (s.regs.a.toNat < v.toNat))

/-- SB in its three forms (41_arithmetic.md sections 2 and 3; decisions D7 to D11, log 15, 16, 17). -/
def Obligations.SubtractWithCarryForms : Prop :=
  OperationForms .sbS .sbM .sbI fun s v =>
    s.withResult (BitVec.ofInt 8 (s.regs.a.toNat - v.toNat - s.flags.c.toNat))
      (decide (s.regs.a.toNat < v.toNat + s.flags.c.toNat))

/-- ND in its three forms (41_arithmetic.md sections 2 and 3; decisions D7 to D11, log 15, 16, 17). -/
def Obligations.AndForms : Prop :=
  OperationForms .ndS .ndM .ndI fun s v =>
    s.withResult (s.regs.a &&& v) false

/-- XR in its three forms (41_arithmetic.md sections 2 and 3; decisions D7 to D11, log 15, 16, 17). -/
def Obligations.ExclusiveOrForms : Prop :=
  OperationForms .xrS .xrM .xrI fun s v =>
    s.withResult (s.regs.a ^^^ v) false

/-- OR in its three forms (41_arithmetic.md sections 2 and 3; decisions D7 to D11, log 15, 16, 17). -/
def Obligations.InclusiveOrForms : Prop :=
  OperationForms .orS .orM .orI fun s v =>
    s.withResult (s.regs.a ||| v) false

/-- CP in its three forms (41_arithmetic.md sections 2 and 3; decisions D7 to D11, log 15, 16, 17). -/
def Obligations.CompareForms : Prop :=
  OperationForms .cpS .cpM .cpI fun s v =>
    s.withCompare (s.regs.a - v) (decide (s.regs.a.toNat < v.toNat))

/-- The chaining of operations by the carry flip-flop (41_arithmetic.md section 5; decisions D8, D9, log 16). -/
def Obligations.MultiByteArithmetic : Prop :=
  ∀ (s : State) (h m n : Byte),
    (∃ t u, exec (.adI n) s = .next t ∧ exec (.acI m) { t with regs := { t.regs with a := h } } = .next u ∧
      u.flags.c.toNat * 65536 + u.regs.a.toNat * 256 + t.regs.a.toNat =
        (h.toNat * 256 + s.regs.a.toNat) + (m.toNat * 256 + n.toNat)) ∧
    (∃ t u, exec (.suI n) s = .next t ∧ exec (.sbI m) { t with regs := { t.regs with a := h } } = .next u ∧
      u.regs.a.toNat * 256 + t.regs.a.toNat + (m.toNat * 256 + n.toNat) =
        (h.toNat * 256 + s.regs.a.toNat) + u.flags.c.toNat * 65536)

/-- SHL and SHR (41_arithmetic.md section 4; the circular shift is decision D13, log 19, the free value log 20). -/
def Obligations.ShiftForms : Prop :=
  ∀ s : State,
    (s.params.shiftKind = .circular →
      (∃ a : Byte, a.toNat = 2 * s.regs.a.toNat % 256 + s.regs.a.toNat / 128 ∧
        exec .shl s = .next { s with
          regs := { s.regs with a := a }
          flags := { s.flags with c := decide (128 ≤ s.regs.a.toNat) } }) ∧
      (∃ a : Byte, a.toNat = s.regs.a.toNat / 2 + 128 * (s.regs.a.toNat % 2) ∧
        exec .shr s = .next { s with
          regs := { s.regs with a := a }
          flags := { s.flags with c := decide (s.regs.a.toNat % 2 = 1) } })) ∧
    (s.params.shiftKind = .other → ∀ right : Bool,
      exec (if right then .shr else .shl) s = .next { s with
        regs := { s.regs with a := (Config.otherShift right s.regs.a s.flags.c).1 }
        flags := { s.flags with c := (Config.otherShift right s.regs.a s.flags.c).2 } })

/-- Corner cases of SHL and SHR (41_arithmetic.md section 4; decision D13, log 19). -/
def Obligations.ShiftsUndoEachOther : Prop :=
  ∀ s : State, s.params.shiftKind = .circular →
    (∃ t, exec .shl s = .next t ∧
      exec .shr t = .next { s with flags := { s.flags with c := s.regs.a.getLsbD 7 } }) ∧
    (∃ t1 t2 t3 t4 t5 t6 t7 t8, exec .shl s = .next t1 ∧ exec .shl t1 = .next t2 ∧ exec .shl t2 = .next t3 ∧
      exec .shl t3 = .next t4 ∧ exec .shl t4 = .next t5 ∧ exec .shl t5 = .next t6 ∧ exec .shl t6 = .next t7 ∧
      exec .shl t7 = .next t8 ∧ t8.regs = s.regs)

/-- JMP (42_control.md R191). The byte order of the target and its two spare bits are the spec's decision D4 (R98, log 11),
that bits 5 to 3 of the first byte do not matter is decision D27 (log 28). -/
def Obligations.JumpUnconditional : Prop :=
  ∀ (s : State) (icc : BitVec 3) (b2 b3 : Byte) (t : Addr),
    decode s.params.addrLowFirst [firstByte 1 icc 4, b2, b3] = .ok (.jmp (targetOf s.params.addrLowFirst b2 b3), []) ∧
    (targetOf true b2 b3).toNat = b3.toNat % 64 * 256 + b2.toNat ∧
    (targetOf false b2 b3).toNat = b2.toNat % 64 * 256 + b3.toNat ∧
    exec (.jmp t) s = .next { s with pc := t }

/-- CALL (42_control.md section 3; decisions D5, D6, log 12, 13). -/
def Obligations.CallStacksTheReturnAddress : Prop :=
  CallForm .call (fun _ => true) ∧
    ∀ (s : State) (b2 b3 : Byte), s.run = .running → s.noRequest = true → s.holds s.pc [0x46, b2, b3] → s.stk.sp.val < 7 →
      ∃ t, step s = .next t ∧ t.pc = targetOf s.params.addrLowFirst b2 b3 ∧ t.stk.live = s.stk.live ++ [s.pc + 3]

/-- JFc (R193). -/
def Obligations.JumpIfFalse : Prop :=
  JumpForm .jfc (fun s => s.flags.c == false) ∧
    JumpForm .jfz (fun s => s.flags.z == false) ∧
    JumpForm .jfs (fun s => s.flags.s == false) ∧
    JumpForm .jfp (fun s => s.flags.p == false) ∧
    JumpStep 0x40 .jfc (fun s => s.flags.c == false) ∧
    JumpStep 0x48 .jfz (fun s => s.flags.z == false) ∧
    JumpStep 0x50 .jfs (fun s => s.flags.s == false) ∧
    JumpStep 0x58 .jfp (fun s => s.flags.p == false)

/-- JTc (R194). -/
def Obligations.JumpIfTrue : Prop :=
  JumpForm .jtc (fun s => s.flags.c == true) ∧
    JumpForm .jtz (fun s => s.flags.z == true) ∧
    JumpForm .jts (fun s => s.flags.s == true) ∧
    JumpForm .jtp (fun s => s.flags.p == true) ∧
    JumpStep 0x60 .jtc (fun s => s.flags.c == true) ∧
    JumpStep 0x68 .jtz (fun s => s.flags.z == true) ∧
    JumpStep 0x70 .jts (fun s => s.flags.s == true) ∧
    JumpStep 0x78 .jtp (fun s => s.flags.p == true)

/-- CFc (42_control.md section 3; decision D14, log 21). -/
def Obligations.CallIfFalse : Prop :=
  CallForm .cfc (fun s => s.flags.c == false) ∧
    CallForm .cfz (fun s => s.flags.z == false) ∧
    CallForm .cfs (fun s => s.flags.s == false) ∧
    CallForm .cfp (fun s => s.flags.p == false)

/-- CTc (42_control.md section 3; decision D6, log 13). -/
def Obligations.CallIfTrue : Prop :=
  CallForm .ctc (fun s => s.flags.c == true) ∧
    CallForm .ctz (fun s => s.flags.z == true) ∧
    CallForm .cts (fun s => s.flags.s == true) ∧
    CallForm .ctp (fun s => s.flags.p == true)

/-- RFc (42_control.md section 4; decision D6, log 13). -/
def Obligations.ReturnIfFalse : Prop :=
  ReturnForm .rfc (fun s => s.flags.c == false) ∧
    ReturnForm .rfz (fun s => s.flags.z == false) ∧
    ReturnForm .rfs (fun s => s.flags.s == false) ∧
    ReturnForm .rfp (fun s => s.flags.p == false)

/-- RTc (42_control.md section 4; decision D6, log 13). -/
def Obligations.ReturnIfTrue : Prop :=
  ReturnForm .rtc (fun s => s.flags.c == true) ∧
    ReturnForm .rtz (fun s => s.flags.z == true) ∧
    ReturnForm .rts (fun s => s.flags.s == true) ∧
    ReturnForm .rtp (fun s => s.flags.p == true)

/-- The discipline of the stack (10_state.md section 4; decision D6, log 13). -/
def Obligations.StackIsLastInFirstOut : Prop :=
  ∀ (policy : StackPolicy) (k : AddrStack) (v : Addr),
    k.live.length = k.sp.val ∧
    (k.sp.val < 7 → ∃ k1, k.push policy v = some k1 ∧ k1.live = k.live ++ [v]) ∧
    (k.sp.val = 7 → k.push .fault v = none ∧ ∃ k1, k.push .circular v = some k1 ∧ k1.live = k.live.tail ++ [v]) ∧
    (0 < k.sp.val → ∃ w k1, k.pop policy = some (w, k1) ∧ k.live = k1.live ++ [w]) ∧
    (k.sp.val = 0 → k.pop .fault = none)

/-- The circular policy. How the ring behaves below depth 0 is the model's reading (log 14). -/
def Obligations.CircularStackIsARing : Prop :=
  ∀ (k : AddrStack) (v : Addr), ∃ k1 k2 k3, k.push .circular v = some k1 ∧
    AddrStack.popTimes 1 k1 = some (v, k2) ∧ AddrStack.popTimes 8 k1 = some (v, k3)

/-- Subroutine linkage (42_control.md sections 3 and 4; decisions D5, D6, log 12, 13). -/
def Obligations.CallThenReturn : Prop :=
  ∀ (s : State) (t : Addr) (i : Instr), s.stk.sp.val < 7 → isReturn i = true → writesPc i s = true →
    ∃ u k, exec (.call t) s = .next u ∧ u.pc = t ∧ exec i u = .next { s with stk := k } ∧ k.live = s.stk.live

/-- HALT (42_control.md section 5; where pc stands is an inference of the spec). -/
def Obligations.HaltFirstCoding : Prop :=
  ∀ s : State, exec .halt s = .next { s with run := .stopped } ∧
    (∀ b : Byte, (b = 0x00 ∨ b = 0x01) → s.run = .running → s.noRequest = true → readByte s s.pc = .ok b →
      ∃ t, step s = .next t ∧ t.run = .stopped ∧ t.pc = s.pc + 1 ∧ t.regs = s.regs ∧ t.flags = s.flags ∧
        t.stk = s.stk ∧ t.mem = s.mem)

/-- HALT, second coding (R200). -/
def Obligations.HaltSecondCoding : Prop :=
  ∀ s : State, decode s.params.addrLowFirst [0xFF] = .ok (.haltFF, []) ∧ exec .haltFF s = exec .halt s ∧
    exec .haltFF s = .next { s with run := .stopped } ∧
    (s.run = .running → s.noRequest = true → readByte s s.pc = .ok 0xFF →
      step s = .next { s with
        run := .stopped
        pc := s.pc + 1
        ir := 0xFF
        iaddr := s.pc
        intMoves := s.intMoves.tail
        bus := .pci s.pc 0xFF false :: s.bus })

/-- RESTART (42_control.md section 6; decision D16, log 23). -/
def Obligations.RestartForms : Prop :=
  ∀ (s : State) (k : BitVec 3), ∃ t : Addr, t.toNat = k.toNat * 2 ^ s.params.rstShift % 16384 ∧
    (s.params.hasRestart = true → s.params.rstPush = some false → exec (.rst k) s = .next { s with pc := t }) ∧
    (s.params.hasRestart = true → s.params.rstPush = some true → s.canPush →
      ∃ stk, s.stk.push s.params.stackPolicy s.pc = some stk ∧ exec (.rst k) s = .next { s with stk := stk, pc := t }) ∧
    (s.params.hasRestart = true → s.params.rstPush = some true → ¬ s.canPush →
      exec (.rst k) s = .fault (.stackOverflow s.iaddr)) ∧
    (s.params.hasRestart = true → s.params.rstPush = none →
      exec (.rst k) s = .refused (.restartPushOpen (firstByte 0 k 5))) ∧
    (s.params.hasRestart = false → exec (.rst k) s = .refused (.restartAbsent (firstByte 0 k 5)))

/-- INP m (43_io.md). The source of answers is the model's form of the oracle (log 7). -/
def Obligations.InputLoadsAccumulator : Prop :=
  ∀ (s : State) (m : BitVec 3),
    (∀ b rest, s.ioAnswers = b :: rest → exec (.inp m) s = .next { s with
      regs := { s.regs with a := b }
      ioAnswers := rest
      bus := .pcc (m.zeroExtend 5) s.regs.a (some b) :: s.bus }) ∧
    (s.ioAnswers = [] → exec (.inp m) s = .next { s with
      regs := { s.regs with a := Config.ioOracle s.bus (m.zeroExtend 5) s.regs.a }
      bus := .pcc (m.zeroExtend 5) s.regs.a (some (Config.ioOracle s.bus (m.zeroExtend 5) s.regs.a)) :: s.bus })

/-- IO r,m (43_io.md). -/
def Obligations.OutputCommand : Prop :=
  ∀ (s : State) (r : BitVec 2) (m : BitVec 3), r ≠ 0 → ∃ ctl : BitVec 5, ctl.toNat = r.toNat * 8 + m.toNat ∧
    exec (.io r m) s = .next { s with bus := .pcc ctl s.regs.a none :: s.bus }

/-- The unassigned bytes (30_encoding.md section 5; the refusal is decision D15, log 22). -/
def Obligations.UnassignedBytesStop : Prop :=
  (∀ (s : State) (aaa : BitVec 3),
      exec (.unassigned0 aaa) s = .refused (.unassigned (firstByte 0 aaa 0) s.iaddr) ∧
      exec (.unassigned1 aaa) s = .refused (.unassigned (firstByte 0 aaa 1) s.iaddr) ∧
      exec (.unassigned2 aaa) s = .refused (.unassigned (firstByte 0 aaa 2) s.iaddr) ∧
      exec (.unassigned3 aaa) s = .refused (.unassigned (firstByte 0 aaa 3) s.iaddr)) ∧
    ((List.range 256).filter (fun b => 62 ≤ rowOf (instrOf true (BitVec.ofNat 8 b) 0 0))).length = 28
end

