-- ==== Sys2Proof/Laws/Decode.lean ====
section
/-! SUPPORT. The target of a jump and its two bytes (30_encoding.md R98). -/

namespace Sys2Proof

/-- The fourteen bits of an address from its low byte and the six bits above. -/
theorem address_of_halves (t : Addr) :
    ((0 : BitVec 2) ++ t.extractLsb' 8 6 : BitVec (2 + 6)).extractLsb' 0 6 ++ t.extractLsb' 0 8 = t := by
  apply BitVec.eq_of_getLsbD_eq
  intro i hi
  simp only [BitVec.getLsbD_append, BitVec.getLsbD_extractLsb']
  by_cases h : i < 8
  · simp [h]
  · simp [h, show i - 8 < 6 by omega, show 8 + (i - 8) = i by omega]

/-- The two bytes of a target are read back as the target, in either order (30_encoding.md R98). -/
theorem targetOf_targetBytes (lowFirst : Bool) (t : Addr) :
    ∃ b2 b3, targetBytes lowFirst t = [b2, b3] ∧ targetOf lowFirst b2 b3 = t := by
  cases lowFirst <;> exact ⟨_, _, rfl, address_of_halves t⟩

end Sys2Proof
end

