-- ==== Sys2Proof/Laws/State.lean ====
section
/-! SUPPORT. One lemma for each field of State under each named update, and the laws of the register file. -/

namespace Sys2Proof.Machine

/-! A logged bus cycle changes the history alone. -/

@[simp] theorem State.log_regs (s : State) (c : BusCycle) : (s.log c).regs = s.regs := rfl
@[simp] theorem State.log_flags (s : State) (c : BusCycle) : (s.log c).flags = s.flags := rfl
@[simp] theorem State.log_pc (s : State) (c : BusCycle) : (s.log c).pc = s.pc := rfl
@[simp] theorem State.log_stk (s : State) (c : BusCycle) : (s.log c).stk = s.stk := rfl
@[simp] theorem State.log_run (s : State) (c : BusCycle) : (s.log c).run = s.run := rfl
@[simp] theorem State.log_ir (s : State) (c : BusCycle) : (s.log c).ir = s.ir := rfl
@[simp] theorem State.log_iaddr (s : State) (c : BusCycle) : (s.log c).iaddr = s.iaddr := rfl
@[simp] theorem State.log_mem (s : State) (c : BusCycle) : (s.log c).mem = s.mem := rfl
@[simp] theorem State.log_bus (s : State) (c : BusCycle) : (s.log c).bus = c :: s.bus := rfl
@[simp] theorem State.log_intMoves (s : State) (c : BusCycle) : (s.log c).intMoves = s.intMoves := rfl
@[simp] theorem State.log_ioAnswers (s : State) (c : BusCycle) : (s.log c).ioAnswers = s.ioAnswers := rfl
@[simp] theorem State.log_params (s : State) (c : BusCycle) : (s.log c).params = s.params := rfl

/-! A register write changes the registers alone. -/

@[simp] theorem State.setReg_regs (s : State) (r : Reg) (v : Byte) : (s.setReg r v).regs = s.regs.set r v := rfl
@[simp] theorem State.setReg_flags (s : State) (r : Reg) (v : Byte) : (s.setReg r v).flags = s.flags := rfl
@[simp] theorem State.setReg_pc (s : State) (r : Reg) (v : Byte) : (s.setReg r v).pc = s.pc := rfl
@[simp] theorem State.setReg_stk (s : State) (r : Reg) (v : Byte) : (s.setReg r v).stk = s.stk := rfl
@[simp] theorem State.setReg_run (s : State) (r : Reg) (v : Byte) : (s.setReg r v).run = s.run := rfl
@[simp] theorem State.setReg_ir (s : State) (r : Reg) (v : Byte) : (s.setReg r v).ir = s.ir := rfl
@[simp] theorem State.setReg_iaddr (s : State) (r : Reg) (v : Byte) : (s.setReg r v).iaddr = s.iaddr := rfl
@[simp] theorem State.setReg_mem (s : State) (r : Reg) (v : Byte) : (s.setReg r v).mem = s.mem := rfl
@[simp] theorem State.setReg_bus (s : State) (r : Reg) (v : Byte) : (s.setReg r v).bus = s.bus := rfl
@[simp] theorem State.setReg_intMoves (s : State) (r : Reg) (v : Byte) : (s.setReg r v).intMoves = s.intMoves := rfl
@[simp] theorem State.setReg_ioAnswers (s : State) (r : Reg) (v : Byte) : (s.setReg r v).ioAnswers = s.ioAnswers := rfl
@[simp] theorem State.setReg_params (s : State) (r : Reg) (v : Byte) : (s.setReg r v).params = s.params := rfl

/-! Taking the interrupt changes the run condition alone (60_exceptions.md R238). -/

@[simp] theorem takeInterrupt_regs (s : State) : (takeInterrupt s).regs = s.regs := rfl
@[simp] theorem takeInterrupt_flags (s : State) : (takeInterrupt s).flags = s.flags := rfl
@[simp] theorem takeInterrupt_pc (s : State) : (takeInterrupt s).pc = s.pc := rfl
@[simp] theorem takeInterrupt_stk (s : State) : (takeInterrupt s).stk = s.stk := rfl
@[simp] theorem takeInterrupt_run (s : State) : (takeInterrupt s).run = .running := rfl
@[simp] theorem takeInterrupt_ir (s : State) : (takeInterrupt s).ir = s.ir := rfl
@[simp] theorem takeInterrupt_iaddr (s : State) : (takeInterrupt s).iaddr = s.iaddr := rfl
@[simp] theorem takeInterrupt_mem (s : State) : (takeInterrupt s).mem = s.mem := rfl
@[simp] theorem takeInterrupt_bus (s : State) : (takeInterrupt s).bus = s.bus := rfl
@[simp] theorem takeInterrupt_intMoves (s : State) : (takeInterrupt s).intMoves = s.intMoves := rfl
@[simp] theorem takeInterrupt_ioAnswers (s : State) : (takeInterrupt s).ioAnswers = s.ioAnswers := rfl
@[simp] theorem takeInterrupt_params (s : State) : (takeInterrupt s).params = s.params := rfl

/-! An operation's result. -/

@[simp] theorem State.withResult_regs (s : State) (r : Byte) (c : Bool) : (s.withResult r c).regs = { s.regs with a := r } := rfl
@[simp] theorem State.withResult_flags (s : State) (r : Byte) (c : Bool) : (s.withResult r c).flags = resultFlags r c := rfl
@[simp] theorem State.withResult_pc (s : State) (r : Byte) (c : Bool) : (s.withResult r c).pc = s.pc := rfl
@[simp] theorem State.withResult_stk (s : State) (r : Byte) (c : Bool) : (s.withResult r c).stk = s.stk := rfl
@[simp] theorem State.withResult_run (s : State) (r : Byte) (c : Bool) : (s.withResult r c).run = s.run := rfl
@[simp] theorem State.withResult_ir (s : State) (r : Byte) (c : Bool) : (s.withResult r c).ir = s.ir := rfl
@[simp] theorem State.withResult_iaddr (s : State) (r : Byte) (c : Bool) : (s.withResult r c).iaddr = s.iaddr := rfl
@[simp] theorem State.withResult_mem (s : State) (r : Byte) (c : Bool) : (s.withResult r c).mem = s.mem := rfl
@[simp] theorem State.withResult_bus (s : State) (r : Byte) (c : Bool) : (s.withResult r c).bus = s.bus := rfl
@[simp] theorem State.withResult_intMoves (s : State) (r : Byte) (c : Bool) : (s.withResult r c).intMoves = s.intMoves := rfl
@[simp] theorem State.withResult_ioAnswers (s : State) (r : Byte) (c : Bool) : (s.withResult r c).ioAnswers = s.ioAnswers := rfl
@[simp] theorem State.withResult_params (s : State) (r : Byte) (c : Bool) : (s.withResult r c).params = s.params := rfl

/-! A compare's result. -/

@[simp] theorem State.withCompare_regs (s : State) (r : Byte) (c : Bool) : (s.withCompare r c).regs = s.regs := rfl
@[simp] theorem State.withCompare_flags (s : State) (r : Byte) (c : Bool) : (s.withCompare r c).flags = resultFlags r c := rfl
@[simp] theorem State.withCompare_pc (s : State) (r : Byte) (c : Bool) : (s.withCompare r c).pc = s.pc := rfl
@[simp] theorem State.withCompare_stk (s : State) (r : Byte) (c : Bool) : (s.withCompare r c).stk = s.stk := rfl
@[simp] theorem State.withCompare_run (s : State) (r : Byte) (c : Bool) : (s.withCompare r c).run = s.run := rfl
@[simp] theorem State.withCompare_ir (s : State) (r : Byte) (c : Bool) : (s.withCompare r c).ir = s.ir := rfl
@[simp] theorem State.withCompare_iaddr (s : State) (r : Byte) (c : Bool) : (s.withCompare r c).iaddr = s.iaddr := rfl
@[simp] theorem State.withCompare_mem (s : State) (r : Byte) (c : Bool) : (s.withCompare r c).mem = s.mem := rfl
@[simp] theorem State.withCompare_bus (s : State) (r : Byte) (c : Bool) : (s.withCompare r c).bus = s.bus := rfl
@[simp] theorem State.withCompare_intMoves (s : State) (r : Byte) (c : Bool) : (s.withCompare r c).intMoves = s.intMoves := rfl
@[simp] theorem State.withCompare_ioAnswers (s : State) (r : Byte) (c : Bool) : (s.withCompare r c).ioAnswers = s.ioAnswers := rfl
@[simp] theorem State.withCompare_params (s : State) (r : Byte) (c : Bool) : (s.withCompare r c).params = s.params := rfl

/-! The state after an ordinary fetch. -/

@[simp] theorem State.afterFetch_regs (s : State) (b1 : Byte) (bs : List Byte) : (s.afterFetch b1 bs).regs = s.regs := rfl
@[simp] theorem State.afterFetch_flags (s : State) (b1 : Byte) (bs : List Byte) : (s.afterFetch b1 bs).flags = s.flags := rfl
@[simp] theorem State.afterFetch_pc (s : State) (b1 : Byte) (bs : List Byte) : (s.afterFetch b1 bs).pc = s.pc + 1 + BitVec.ofNat 14 bs.length := rfl
@[simp] theorem State.afterFetch_stk (s : State) (b1 : Byte) (bs : List Byte) : (s.afterFetch b1 bs).stk = s.stk := rfl
@[simp] theorem State.afterFetch_run (s : State) (b1 : Byte) (bs : List Byte) : (s.afterFetch b1 bs).run = s.run := rfl
@[simp] theorem State.afterFetch_ir (s : State) (b1 : Byte) (bs : List Byte) : (s.afterFetch b1 bs).ir = b1 := rfl
@[simp] theorem State.afterFetch_iaddr (s : State) (b1 : Byte) (bs : List Byte) : (s.afterFetch b1 bs).iaddr = s.pc := rfl
@[simp] theorem State.afterFetch_mem (s : State) (b1 : Byte) (bs : List Byte) : (s.afterFetch b1 bs).mem = s.mem := rfl
@[simp] theorem State.afterFetch_bus (s : State) (b1 : Byte) (bs : List Byte) : (s.afterFetch b1 bs).bus = fetchCycles s.pc (b1 :: bs) ++ s.bus := rfl
@[simp] theorem State.afterFetch_intMoves (s : State) (b1 : Byte) (bs : List Byte) : (s.afterFetch b1 bs).intMoves = s.intMoves.tail := rfl
@[simp] theorem State.afterFetch_ioAnswers (s : State) (b1 : Byte) (bs : List Byte) : (s.afterFetch b1 bs).ioAnswers = s.ioAnswers := rfl
@[simp] theorem State.afterFetch_params (s : State) (b1 : Byte) (bs : List Byte) : (s.afterFetch b1 bs).params = s.params := rfl

/-! An accepted instruction byte changes `pc` and the history (20_memory.md R65). -/

@[simp] theorem acceptByte_regs (adv ack : Bool) (b : Byte) (s : State) :
    (acceptByte adv ack b s).regs = s.regs := rfl
@[simp] theorem acceptByte_flags (adv ack : Bool) (b : Byte) (s : State) :
    (acceptByte adv ack b s).flags = s.flags := rfl
@[simp] theorem acceptByte_pc (adv ack : Bool) (b : Byte) (s : State) :
    (acceptByte adv ack b s).pc = if adv then s.pc + 1 else s.pc := rfl
@[simp] theorem acceptByte_stk (adv ack : Bool) (b : Byte) (s : State) :
    (acceptByte adv ack b s).stk = s.stk := rfl
@[simp] theorem acceptByte_run (adv ack : Bool) (b : Byte) (s : State) :
    (acceptByte adv ack b s).run = s.run := rfl
@[simp] theorem acceptByte_ir (adv ack : Bool) (b : Byte) (s : State) :
    (acceptByte adv ack b s).ir = s.ir := rfl
@[simp] theorem acceptByte_iaddr (adv ack : Bool) (b : Byte) (s : State) :
    (acceptByte adv ack b s).iaddr = s.iaddr := rfl
@[simp] theorem acceptByte_mem (adv ack : Bool) (b : Byte) (s : State) :
    (acceptByte adv ack b s).mem = s.mem := rfl
@[simp] theorem acceptByte_bus (adv ack : Bool) (b : Byte) (s : State) :
    (acceptByte adv ack b s).bus = .pci s.pc b ack :: s.bus := rfl
@[simp] theorem acceptByte_intMoves (adv ack : Bool) (b : Byte) (s : State) :
    (acceptByte adv ack b s).intMoves = s.intMoves := rfl
@[simp] theorem acceptByte_ioAnswers (adv ack : Bool) (b : Byte) (s : State) :
    (acceptByte adv ack b s).ioAnswers = s.ioAnswers := rfl
@[simp] theorem acceptByte_params (adv ack : Bool) (b : Byte) (s : State) :
    (acceptByte adv ack b s).params = s.params := rfl

/-! The register file (10_state.md R20, R44). -/

@[simp] theorem Regs.get_set (x : Regs) (r q : Reg) (v : Byte) :
    (x.set r v).get q = if q = r then v else x.get q := by
  cases r <;> cases q <;> rfl

@[simp] theorem Regs.set_a (x : Regs) (v : Byte) : x.set .a v = { x with a := v } := rfl

@[simp] theorem Regs.get_a (x : Regs) : x.get .a = x.a := rfl

theorem Regs.set_get_self (x : Regs) (r : Reg) : x.set r (x.get r) = x := by
  cases r <;> rfl

@[simp] theorem State.reg_eq (s : State) (r : Reg) : s.reg r = s.regs.get r := rfl

/-! The operand address depends on H and L alone (20_memory.md R73). -/

theorem maddr_congr {s t : State} (h : s.regs.h = t.regs.h) (l : s.regs.l = t.regs.l) : maddr s = maddr t := by
  unfold maddr
  rw [h, l]

@[simp] theorem maddr_log (s : State) (c : BusCycle) : maddr (s.log c) = maddr s := rfl

/-! A read depends on memory and MEM_SIZE alone (20_memory.md R70, R75). -/

theorem readByte_congr {s t : State} (m : s.mem = t.mem) (p : s.params = t.params) (a : Addr) :
    readByte s a = readByte t a := by
  unfold readByte
  rw [m, p]

/-! The fields of a launch state (70_reset_and_hazards.md R262). -/

section Launch

variable (p : Params) (pc : Addr) (image : Memory) (moves : List (Option Insertion)) (answers : List Byte)

@[simp] theorem State.launch_regs : (State.launch p pc image moves answers).regs = { a := 0, b := 0, c := 0, d := 0, e := 0, h := 0, l := 0 } := rfl

@[simp] theorem State.launch_flags : (State.launch p pc image moves answers).flags = { c := false, z := false, s := false, p := false } := rfl

@[simp] theorem State.launch_pc : (State.launch p pc image moves answers).pc = pc := rfl

@[simp] theorem State.launch_stk : (State.launch p pc image moves answers).stk = { words := Vector.replicate 7 0, sp := 0 } := rfl

@[simp] theorem State.launch_run : (State.launch p pc image moves answers).run = p.initRun := rfl

@[simp] theorem State.launch_ir : (State.launch p pc image moves answers).ir = 0 := rfl

@[simp] theorem State.launch_iaddr : (State.launch p pc image moves answers).iaddr = 0 := rfl

@[simp] theorem State.launch_mem : (State.launch p pc image moves answers).mem = image := rfl

@[simp] theorem State.launch_bus : (State.launch p pc image moves answers).bus = [] := rfl

@[simp] theorem State.launch_intMoves : (State.launch p pc image moves answers).intMoves = moves := rfl

@[simp] theorem State.launch_ioAnswers : (State.launch p pc image moves answers).ioAnswers = answers := rfl

@[simp] theorem State.launch_params : (State.launch p pc image moves answers).params = p := rfl

end Launch

end Sys2Proof.Machine
end

