-- ==== Sys2Proof/Laws/Ops.lean ====
section
/-! SUPPORT. For each shared operation, once, everything it can do. -/

namespace Sys2Proof.Machine

/-! ### Outcomes -/

@[simp] theorem orFault_ok {α : Type} (v : α) (k : α → Result) : orFault (.ok v) k = k v := rfl

@[simp] theorem orFault_error {α : Type} (f : Fault) (k : α → Result) : orFault (.error f) k = .fault f := rfl

/-- A computation that goes on answers a next state only through its value. -/
theorem orFault_next {α : Type} {r : Except Fault α} {k : α → Result} {t : State} (h : orFault r k = .next t) :
    ∃ v, r = .ok v ∧ k v = .next t := by
  cases r with
  | ok v => exact ⟨v, rfl, h⟩
  | error f => cases h

/-! ### Memory and the bus -/

/-- A byte that memory answers is implemented and has been written (20_memory.md R75, 10_state.md R43). -/
theorem readByte_ok {s : State} {a : Addr} {b : Byte} (h : readByte s a = .ok b) :
    a.toNat < s.params.memSize ∧ s.mem.byteAt a.toNat = some b := by
  unfold readByte at h
  split at h
  · cases h
  · refine ⟨Nat.lt_of_not_le ‹_›, ?_⟩
    split at h
    · injection h with h
      rw [← h]
      assumption
    · cases h

/-- One PCR cycle (20_memory.md R66). -/
theorem memRead_ok {s t : State} {a : Addr} {b : Byte} (h : memRead s a = .ok (b, t)) :
    readByte s a = .ok b ∧ t = s.log (.pcr a b) := by
  unfold memRead at h
  split at h
  · injection h with h
    injection h with h1 h2
    subst h1
    exact ⟨‹_›, h2.symm⟩
  · cases h

/-- One PCW cycle (20_memory.md R67). -/
theorem memWrite_ok {s t : State} {a : Addr} {v : Byte} (h : memWrite s a v = .ok t) :
    a.toNat < s.params.memSize ∧ t = { s with mem := s.mem.store a.toNat v }.log (.pcw a v) := by
  unfold memWrite at h
  split at h
  · cases h
  · injection h with h
    exact ⟨Nat.lt_of_not_le ‹_›, h.symm⟩

/-- One PCI cycle: the byte comes from the interrupt logic or from memory at `pc` (20_memory.md R65). -/
theorem fetchByte_ok {drive : Option Byte} {advance ack : Bool} {s t : State} {b : Byte}
    (h : fetchByte drive advance ack s = .ok (b, t)) :
    (drive = some b ∨ drive = none ∧ readByte s s.pc = .ok b) ∧ t = acceptByte advance ack b s := by
  cases drive with
  | some d =>
    injection h with h
    injection h with h1 h2
    subst h1
    exact ⟨.inl rfl, h2.symm⟩
  | none =>
    simp only [fetchByte] at h
    split at h
    · injection h with h
      injection h with h1 h2
      subst h1
      exact ⟨.inr ⟨rfl, ‹_›⟩, h2.symm⟩
    · cases h

/-- A PCI cycle on which memory answers. -/
theorem fetchByte_memory {s : State} {b : Byte} (advance ack : Bool) (h : readByte s s.pc = .ok b) :
    fetchByte none advance ack s = .ok (b, acceptByte advance ack b s) := by
  simp [fetchByte, h]

/-- A PCI cycle on which the interrupt logic drives the lines (60_exceptions.md R233). -/
@[simp] theorem fetchByte_driven (b : Byte) (advance ack : Bool) (s : State) :
    fetchByte (some b) advance ack s = .ok (b, acceptByte advance ack b s) := rfl

/-- One PCC cycle changes the history and, for a read, the answers that remain (20_memory.md R68). -/
theorem ioCycle_cases (s : State) (ctl : BitVec 5) (out : Byte) :
    (ctl.extractLsb' 3 2 = 0 ∧ ioCycle s ctl out =
        (some (ioReply s ctl out),
          { s with ioAnswers := s.ioAnswers.tail }.log (.pcc ctl out (some (ioReply s ctl out))))) ∨
      (ctl.extractLsb' 3 2 ≠ 0 ∧ ioCycle s ctl out = (none, s.log (.pcc ctl out none))) := by
  by_cases h : ctl.extractLsb' 3 2 = 0
  · exact .inl ⟨h, if_pos h⟩
  · exact .inr ⟨h, if_neg h⟩

/-- I/O CONTROL changes A, the answers that remain and the history, and nothing else (43_io.md R220, R221). -/
theorem ioControl_cases (ctl : BitVec 5) (s : State) :
    (ctl.extractLsb' 3 2 = 0 ∧ ioControl ctl s =
        { s with
          regs := { s.regs with a := ioReply s ctl s.regs.a }
          ioAnswers := s.ioAnswers.tail
          bus := .pcc ctl s.regs.a (some (ioReply s ctl s.regs.a)) :: s.bus }) ∨
      (ctl.extractLsb' 3 2 ≠ 0 ∧ ioControl ctl s = s.log (.pcc ctl s.regs.a none)) := by
  rcases ioCycle_cases s ctl s.regs.a with ⟨h, e⟩ | ⟨h, e⟩
  · exact .inl ⟨h, by simp [ioControl, e, State.setReg, State.log]⟩
  · exact .inr ⟨h, by simp [ioControl, e]⟩

/-! ### The stack -/

/-- A push changes the stack alone (10_state.md R30). -/
theorem push_ok {s t : State} {v : Addr} (h : push s v = .ok t) :
    ∃ k, s.stk.push s.params.stackPolicy v = some k ∧ t = { s with stk := k } := by
  unfold push at h
  split at h
  · injection h with h
    exact ⟨_, ‹_›, h.symm⟩
  · cases h

/-- A pop changes the stack alone (10_state.md R30). -/
theorem pop_ok {s t : State} {v : Addr} (h : pop s = .ok (v, t)) :
    ∃ k, s.stk.pop s.params.stackPolicy = some (v, k) ∧ t = { s with stk := k } := by
  unfold pop at h
  split at h
  · injection h with h
    injection h with h1 h2
    subst h1
    exact ⟨_, ‹_›, h2.symm⟩
  · cases h

/-! ### Arithmetic -/

/-- An operation writes A and the four flip-flops, and nothing else (41_arithmetic.md R151). -/
theorem aluStep_eq (p : AluOp) (v : Byte) (s : State) :
    aluStep p v s =
      { s with
        regs := if keepsResult p then { s.regs with a := (aluWide p s.regs.a v s.flags.c).extractLsb' 0 8 } else s.regs
        flags := flagsOf (aluWide p s.regs.a v s.flags.c) } := by
  cases p <;> rfl

/-- A shift writes A and the carry flip-flop, and nothing else (41_arithmetic.md R160, R161). -/
theorem shiftStep_eq (right : Bool) (s : State) :
    ∃ a c, shiftStep right s = { s with regs := { s.regs with a := a }, flags := { s.flags with c := c } } :=
  ⟨_, _, rfl⟩

/-! ### Control transfer -/

/-- A jump without stacking changes `pc` alone (42_control.md R191). -/
theorem jumpIf_next {taken : Bool} {t : Addr} {s u : State} (h : jumpIf taken t s = .next u) :
    u = if taken then { s with pc := t } else s := by
  injection h with h
  exact h.symm

/-- A stacking jump changes `pc` and the stack alone (42_control.md R192). -/
theorem callIf_next {taken : Bool} {t : Addr} {s u : State} (h : callIf taken t s = .next u) :
    (taken = false ∧ u = s) ∨
      (taken = true ∧ ∃ k, s.stk.push s.params.stackPolicy s.pc = some k ∧ u = { s with stk := k, pc := t }) := by
  cases taken with
  | false =>
    injection h with h
    exact .inl ⟨rfl, h.symm⟩
  | true =>
    obtain ⟨s1, h1, h2⟩ := orFault_next h
    obtain ⟨k, hk, rfl⟩ := push_ok h1
    injection h2 with h2
    exact .inr ⟨rfl, k, hk, h2.symm⟩

/-- A return changes `pc` and the stack alone (42_control.md R197). -/
theorem returnIf_next {taken : Bool} {s u : State} (h : returnIf taken s = .next u) :
    (taken = false ∧ u = s) ∨
      (taken = true ∧ ∃ v k, s.stk.pop s.params.stackPolicy = some (v, k) ∧ u = { s with stk := k, pc := v }) := by
  cases taken with
  | false =>
    injection h with h
    exact .inl ⟨rfl, h.symm⟩
  | true =>
    obtain ⟨⟨v, s1⟩, h1, h2⟩ := orFault_next h
    obtain ⟨k, hk, rfl⟩ := pop_ok h1
    injection h2 with h2
    exact .inr ⟨rfl, v, k, hk, h2.symm⟩

/-! ### The instruction boundary -/

/-- Sampling INT uses up one move and changes nothing else (60_exceptions.md R232). -/
theorem sampleInt_eq (s : State) :
    sampleInt s = (s.intMoves.headD none, { s with intMoves := s.intMoves.tail }) := by
  obtain ⟨regs, flags, pc, stk, run, ir, iaddr, mem, bus, intMoves, ioAnswers, params⟩ := s
  cases intMoves <;> rfl

end Sys2Proof.Machine
end

