-- ==== Sys2Proof/Laws/Exec.lean ====
section
/-! SUPPORT. Everything an instruction's meaning can do when it answers a next state, said once for all
instructions: the frames of single instructions follow from it. -/

namespace Sys2Proof.Machine

/-- The memory operand has been read: the byte at `Maddr()` and the state with its PCR cycle logged. -/
theorem readM_ok {s t : State} {b : Byte} (h : readM s = .ok (b, t)) :
    readByte s (maddr s) = .ok b ∧ t = s.log (.pcr (maddr s) b) :=
  memRead_ok h

/-- The state in which an operand has been taken: as it was, or with the PCR cycle of the memory operand. -/
def OperandTaken (s m : State) : Prop :=
  m = s ∨ ∃ b, readByte s (maddr s) = .ok b ∧ m = s.log (.pcr (maddr s) b)

/-- What the instruction `i` can do to `s`, by kind of instruction. -/
inductive Effect (i : Instr) (s : State) : State → Prop
  /-- one of the eight operations -/
  | operation (p : AluOp) (v : Byte) (m : State) (taken : OperandTaken s m)
      (flags : writesFlags i = .allFour) (reg : writesReg i = if keepsResult p then some .a else none)
      (flow : flowOf i = .straight) (stores : storesTo i s = none) (io : isIo i = false) :
      Effect i s (aluStep p v m)
  /-- a move into a register -/
  | move (dst : Reg) (v : Byte) (m : State) (taken : OperandTaken s m)
      (flags : writesFlags i = .nothing) (reg : writesReg i = some dst)
      (flow : flowOf i = .straight) (stores : storesTo i s = none) (io : isIo i = false) :
      Effect i s (m.setReg dst v)
  /-- a move into memory -/
  | store (v : Byte) (value : (∃ r, i = .moveMR r ∧ v = s.regs.get r) ∨ i = .moviM v)
      (room : (maddr s).toNat < s.params.memSize)
      (flags : writesFlags i = .nothing) (reg : writesReg i = none)
      (flow : flowOf i = .straight) (stores : storesTo i s = some (maddr s)) (io : isIo i = false) :
      Effect i s ({ s with mem := s.mem.store (maddr s).toNat v }.log (.pcw (maddr s) v))
  /-- a shift -/
  | shift (right : Bool) (flags : writesFlags i = .carryOnly) (reg : writesReg i = some .a)
      (flow : flowOf i = .straight) (stores : storesTo i s = none) (io : isIo i = false) :
      Effect i s (shiftStep right s)
  /-- a conditional instruction that does not execute -/
  | nothing (flags : writesFlags i = .nothing) (reg : writesReg i = none)
      (stores : storesTo i s = none) (io : isIo i = false) : Effect i s s
  /-- a jump without stacking that executes -/
  | jump (t : Addr) (flags : writesFlags i = .nothing) (reg : writesReg i = none)
      (stores : storesTo i s = none) (io : isIo i = false) (pc : writesPc i s = true) :
      Effect i s { s with pc := t }
  /-- a stacking jump or a return that executes -/
  | linkage (t : Addr) (k : AddrStack) (flags : writesFlags i = .nothing) (reg : writesReg i = none)
      (stores : storesTo i s = none) (io : isIo i = false) (pc : writesPc i s = true)
      (stack : mayPush i = true ∨ isReturn i = true) : Effect i s { s with stk := k, pc := t }
  /-- HALT -/
  | halt (which : i = .halt ∨ i = .haltFF) : Effect i s { s with run := .stopped }
  /-- I/O CONTROL -/
  | ioControl (ctl : BitVec 5) (io : isIo i = true) (flags : writesFlags i = .nothing)
      (reg : ctl.extractLsb' 3 2 = 0 → writesReg i = some .a)
      (flow : flowOf i = .straight) (stores : storesTo i s = none) : Effect i s (ioControl ctl s)

theorem effect_aluReg {i : Instr} {p : AluOp} {r : Reg} {s t : State} (h : aluReg p r s = .next t)
    (flags : writesFlags i = .allFour) (reg : writesReg i = if keepsResult p then some .a else none)
    (flow : flowOf i = .straight) (stores : storesTo i s = none) (io : isIo i = false) : Effect i s t := by
  injection h with h
  subst h
  exact .operation p _ s (.inl rfl) flags reg flow stores io

theorem effect_aluImm {i : Instr} {p : AluOp} {n : Byte} {s t : State} (h : aluImm p n s = .next t)
    (flags : writesFlags i = .allFour) (reg : writesReg i = if keepsResult p then some .a else none)
    (flow : flowOf i = .straight) (stores : storesTo i s = none) (io : isIo i = false) : Effect i s t := by
  injection h with h
  subst h
  exact .operation p _ s (.inl rfl) flags reg flow stores io

theorem effect_aluMem {i : Instr} {p : AluOp} {s t : State} (h : aluMem p s = .next t)
    (flags : writesFlags i = .allFour) (reg : writesReg i = if keepsResult p then some .a else none)
    (flow : flowOf i = .straight) (stores : storesTo i s = none) (io : isIo i = false) : Effect i s t := by
  obtain ⟨⟨v, s1⟩, h1, h2⟩ := orFault_next h
  obtain ⟨hb, rfl⟩ := readM_ok h1
  injection h2 with h2
  subst h2
  exact .operation p v _ (.inr ⟨v, hb, rfl⟩) flags reg flow stores io

theorem effect_store {i : Instr} {s t : State} {v : Byte} (h : orFault (writeM s v) .next = .next t)
    (value : (∃ r, i = .moveMR r ∧ v = s.regs.get r) ∨ i = .moviM v)
    (flags : writesFlags i = .nothing) (reg : writesReg i = none) (flow : flowOf i = .straight)
    (stores : storesTo i s = some (maddr s)) (io : isIo i = false) : Effect i s t := by
  obtain ⟨s1, h1, h2⟩ := orFault_next h
  obtain ⟨room, rfl⟩ := memWrite_ok h1
  injection h2 with h2
  subst h2
  exact .store v value room flags reg flow stores io

theorem effect_jumpIf {i : Instr} {taken : Bool} {a : Addr} {s t : State} (h : jumpIf taken a s = .next t)
    (flags : writesFlags i = .nothing) (reg : writesReg i = none) (stores : storesTo i s = none)
    (io : isIo i = false) (pc : taken = true → writesPc i s = true) : Effect i s t := by
  have e := jumpIf_next h
  subst e
  cases taken with
  | false => exact .nothing flags reg stores io
  | true => exact .jump a flags reg stores io (pc rfl)

theorem effect_callIf {i : Instr} {taken : Bool} {a : Addr} {s t : State} (h : callIf taken a s = .next t)
    (flags : writesFlags i = .nothing) (reg : writesReg i = none) (stores : storesTo i s = none)
    (io : isIo i = false) (pc : taken = true → writesPc i s = true) (stack : mayPush i = true) :
    Effect i s t := by
  rcases callIf_next h with ⟨_, rfl⟩ | ⟨ht, k, _, rfl⟩
  · exact .nothing flags reg stores io
  · exact .linkage a k flags reg stores io (pc ht) (.inl stack)

theorem effect_returnIf {i : Instr} {taken : Bool} {s t : State} (h : returnIf taken s = .next t)
    (flags : writesFlags i = .nothing) (reg : writesReg i = none) (stores : storesTo i s = none)
    (io : isIo i = false) (pc : taken = true → writesPc i s = true) (stack : isReturn i = true) :
    Effect i s t := by
  rcases returnIf_next h with ⟨_, rfl⟩ | ⟨ht, v, k, _, rfl⟩
  · exact .nothing flags reg stores io
  · exact .linkage v k flags reg stores io (pc ht) (.inr stack)

theorem effect_rst {k : BitVec 3} {s t : State} (h : execRst k s = .next t) : Effect (.rst k) s t := by
  unfold execRst at h
  split at h
  · split at h
    · simp only at h
      split at h
      · exact effect_callIf h rfl rfl rfl rfl (fun _ => rfl) rfl
      · exact effect_jumpIf h rfl rfl rfl rfl (fun _ => rfl)
    · cases h
  · cases h

/-- Every next state an instruction's meaning answers is one of its effects. -/
theorem exec_effect {i : Instr} {s t : State} (h : exec i s = .next t) : Effect i s t := by
  cases i with
  | halt => injection h with h; subst h; exact .halt (.inl rfl)
  | haltFF => injection h with h; subst h; exact .halt (.inr rfl)
  | moveRR dst src => injection h with h; subst h; exact .move _ _ _ (.inl rfl) rfl rfl rfl rfl rfl
  | moveRM dst => 
    obtain ⟨⟨v, s1⟩, h1, h2⟩ := orFault_next h
    obtain ⟨hb, rfl⟩ := readM_ok h1
    injection h2 with h2
    subst h2
    exact .move dst v _ (.inr ⟨v, hb, rfl⟩) rfl rfl rfl rfl rfl
  | moveMR src => exact effect_store (v := s.reg src) h (.inl ⟨src, rfl, rfl⟩) rfl rfl rfl rfl rfl
  | moviR dst n => injection h with h; subst h; exact .move _ _ _ (.inl rfl) rfl rfl rfl rfl rfl
  | moviM n => exact effect_store (v := n) h (.inr rfl) rfl rfl rfl rfl rfl
  | adS src => exact effect_aluReg (p := .ad) (r := src) h rfl rfl rfl rfl rfl
  | adM => exact effect_aluMem (p := .ad) h rfl rfl rfl rfl rfl
  | adI n => exact effect_aluImm (p := .ad) (n := n) h rfl rfl rfl rfl rfl
  | acS src => exact effect_aluReg (p := .ac) (r := src) h rfl rfl rfl rfl rfl
  | acM => exact effect_aluMem (p := .ac) h rfl rfl rfl rfl rfl
  | acI n => exact effect_aluImm (p := .ac) (n := n) h rfl rfl rfl rfl rfl
  | suS src => exact effect_aluReg (p := .su) (r := src) h rfl rfl rfl rfl rfl
  | suM => exact effect_aluMem (p := .su) h rfl rfl rfl rfl rfl
  | suI n => exact effect_aluImm (p := .su) (n := n) h rfl rfl rfl rfl rfl
  | sbS src => exact effect_aluReg (p := .sb) (r := src) h rfl rfl rfl rfl rfl
  | sbM => exact effect_aluMem (p := .sb) h rfl rfl rfl rfl rfl
  | sbI n => exact effect_aluImm (p := .sb) (n := n) h rfl rfl rfl rfl rfl
  | ndS src => exact effect_aluReg (p := .nd) (r := src) h rfl rfl rfl rfl rfl
  | ndM => exact effect_aluMem (p := .nd) h rfl rfl rfl rfl rfl
  | ndI n => exact effect_aluImm (p := .nd) (n := n) h rfl rfl rfl rfl rfl
  | xrS src => exact effect_aluReg (p := .xr) (r := src) h rfl rfl rfl rfl rfl
  | xrM => exact effect_aluMem (p := .xr) h rfl rfl rfl rfl rfl
  | xrI n => exact effect_aluImm (p := .xr) (n := n) h rfl rfl rfl rfl rfl
  | orS src => exact effect_aluReg (p := .or) (r := src) h rfl rfl rfl rfl rfl
  | orM => exact effect_aluMem (p := .or) h rfl rfl rfl rfl rfl
  | orI n => exact effect_aluImm (p := .or) (n := n) h rfl rfl rfl rfl rfl
  | cpS src => exact effect_aluReg (p := .cp) (r := src) h rfl rfl rfl rfl rfl
  | cpM => exact effect_aluMem (p := .cp) h rfl rfl rfl rfl rfl
  | cpI n => exact effect_aluImm (p := .cp) (n := n) h rfl rfl rfl rfl rfl
  | shl => injection h with h; subst h; exact .shift _ rfl rfl rfl rfl rfl
  | shr => injection h with h; subst h; exact .shift _ rfl rfl rfl rfl rfl
  | jmp t' => exact effect_jumpIf (taken := true) (a := t') h rfl rfl rfl rfl (fun _ => rfl)
  | call t' => exact effect_callIf (taken := true) (a := t') h rfl rfl rfl rfl (fun _ => rfl) rfl
  | jfc t' => exact effect_jumpIf (taken := executes false .carry s) (a := t') h rfl rfl rfl rfl id
  | jfz t' => exact effect_jumpIf (taken := executes false .zero s) (a := t') h rfl rfl rfl rfl id
  | jfs t' => exact effect_jumpIf (taken := executes false .sign s) (a := t') h rfl rfl rfl rfl id
  | jfp t' => exact effect_jumpIf (taken := executes false .parity s) (a := t') h rfl rfl rfl rfl id
  | jtc t' => exact effect_jumpIf (taken := executes true .carry s) (a := t') h rfl rfl rfl rfl id
  | jtz t' => exact effect_jumpIf (taken := executes true .zero s) (a := t') h rfl rfl rfl rfl id
  | jts t' => exact effect_jumpIf (taken := executes true .sign s) (a := t') h rfl rfl rfl rfl id
  | jtp t' => exact effect_jumpIf (taken := executes true .parity s) (a := t') h rfl rfl rfl rfl id
  | cfc t' => exact effect_callIf (taken := executes false .carry s) (a := t') h rfl rfl rfl rfl id rfl
  | cfz t' => exact effect_callIf (taken := executes false .zero s) (a := t') h rfl rfl rfl rfl id rfl
  | cfs t' => exact effect_callIf (taken := executes false .sign s) (a := t') h rfl rfl rfl rfl id rfl
  | cfp t' => exact effect_callIf (taken := executes false .parity s) (a := t') h rfl rfl rfl rfl id rfl
  | ctc t' => exact effect_callIf (taken := executes true .carry s) (a := t') h rfl rfl rfl rfl id rfl
  | ctz t' => exact effect_callIf (taken := executes true .zero s) (a := t') h rfl rfl rfl rfl id rfl
  | cts t' => exact effect_callIf (taken := executes true .sign s) (a := t') h rfl rfl rfl rfl id rfl
  | ctp t' => exact effect_callIf (taken := executes true .parity s) (a := t') h rfl rfl rfl rfl id rfl
  | rfc => exact effect_returnIf (taken := executes false .carry s) h rfl rfl rfl rfl id rfl
  | rfz => exact effect_returnIf (taken := executes false .zero s) h rfl rfl rfl rfl id rfl
  | rfs => exact effect_returnIf (taken := executes false .sign s) h rfl rfl rfl rfl id rfl
  | rfp => exact effect_returnIf (taken := executes false .parity s) h rfl rfl rfl rfl id rfl
  | rtc => exact effect_returnIf (taken := executes true .carry s) h rfl rfl rfl rfl id rfl
  | rtz => exact effect_returnIf (taken := executes true .zero s) h rfl rfl rfl rfl id rfl
  | rts => exact effect_returnIf (taken := executes true .sign s) h rfl rfl rfl rfl id rfl
  | rtp => exact effect_returnIf (taken := executes true .parity s) h rfl rfl rfl rfl id rfl
  | rst k => exact effect_rst h
  | inp m => injection h with h; subst h; exact .ioControl _ rfl rfl (fun _ => rfl) rfl rfl
  | io r m => 
    injection h with h
    subst h
    have key : ∀ (r : BitVec 2) (m : BitVec 3), (r ++ m).extractLsb' 3 2 = 0 → writesReg (.io r m) = some .a := by decide
    exact .ioControl _ rfl rfl (key r m) rfl rfl
  | unassigned0 aaa => cases h
  | unassigned1 aaa => cases h
  | unassigned2 aaa => cases h
  | unassigned3 aaa => cases h

end Sys2Proof.Machine
end

