-- ==== Sys2Proof/Laws/PerInstr.lean ====
section
/-! SUPPORT. Facts about every instruction as syntax, one lemma for each constructor. -/

namespace Sys2Proof.Laws

/-- An encoding is as long as its first byte says (30_encoding.md R92). -/
def LengthAgrees.Statement (i : Instr) : Prop :=
  ∀ lowFirst, ∃ b bs, encode lowFirst i = b :: bs ∧ lengthOf b = bs.length + 1

/-- The two address bytes of a jump. -/
theorem targetBytes_length (lowFirst : Bool) (t : Addr) : (targetBytes lowFirst t).length = 2 := by
  cases lowFirst <;> rfl

/-- A first byte with OP = 11 or OP = 10 is the whole instruction. -/
theorem lengthOf_high : ∀ (a b : BitVec 3), lengthOf (firstByte 3 a b) = 1 ∧ lengthOf (firstByte 2 a b) = 1 := by
  decide

/-- A first byte with OP = 00 has a second byte exactly for B = 4 and B = 6. -/
theorem lengthOf_low : ∀ (a b : BitVec 3), lengthOf (firstByte 0 a b) = if b = 4 ∨ b = 6 then 2 else 1 := by
  decide

/-- A jump is three bytes long. -/
theorem lengthAgrees_jump (i : Instr) (b : Byte) (t : Addr) (e : ∀ lf, encode lf i = b :: targetBytes lf t)
    (h : lengthOf b = 3) : LengthAgrees.Statement i :=
  fun lf => ⟨b, targetBytes lf t, e lf, by rw [h, targetBytes_length]⟩

/-- A one-byte instruction. -/
theorem lengthAgrees_one (i : Instr) (b : Byte) (e : ∀ lf, encode lf i = [b]) (h : lengthOf b = 1) :
    LengthAgrees.Statement i :=
  fun lf => ⟨b, [], e lf, h⟩

/-- A two-byte instruction. -/
theorem lengthAgrees_two (i : Instr) (b n : Byte) (e : ∀ lf, encode lf i = [b, n]) (h : lengthOf b = 2) :
    LengthAgrees.Statement i :=
  fun lf => ⟨b, [n], e lf, h⟩

theorem LengthAgrees.halt : LengthAgrees.Statement .halt :=
  lengthAgrees_one _ _ (fun _ => rfl) (by rw [lengthOf_low]; rfl)

theorem LengthAgrees.haltFF : LengthAgrees.Statement .haltFF :=
  lengthAgrees_one _ _ (fun _ => rfl) (by decide)

theorem LengthAgrees.moveRR (dst : Reg) (src : Reg) : LengthAgrees.Statement (.moveRR dst src) :=
  lengthAgrees_one _ _ (fun _ => rfl) (lengthOf_high _ _).1

theorem LengthAgrees.moveRM (dst : Reg) : LengthAgrees.Statement (.moveRM dst) :=
  lengthAgrees_one _ _ (fun _ => rfl) (lengthOf_high _ _).1

theorem LengthAgrees.moveMR (src : Reg) : LengthAgrees.Statement (.moveMR src) :=
  lengthAgrees_one _ _ (fun _ => rfl) (lengthOf_high _ _).1

theorem LengthAgrees.moviR (dst : Reg) (n : Byte) : LengthAgrees.Statement (.moviR dst n) :=
  lengthAgrees_two _ _ n (fun _ => rfl) (by rw [lengthOf_low]; rfl)

theorem LengthAgrees.moviM (n : Byte) : LengthAgrees.Statement (.moviM n) :=
  lengthAgrees_two _ _ n (fun _ => rfl) (by decide)

theorem LengthAgrees.adS (src : Reg) : LengthAgrees.Statement (.adS src) :=
  lengthAgrees_one _ _ (fun _ => rfl) (lengthOf_high _ _).2

theorem LengthAgrees.adM : LengthAgrees.Statement .adM :=
  lengthAgrees_one _ _ (fun _ => rfl) (lengthOf_high _ _).2

theorem LengthAgrees.adI (n : Byte) : LengthAgrees.Statement (.adI n) :=
  lengthAgrees_two _ _ n (fun _ => rfl) (by decide)

theorem LengthAgrees.acS (src : Reg) : LengthAgrees.Statement (.acS src) :=
  lengthAgrees_one _ _ (fun _ => rfl) (lengthOf_high _ _).2

theorem LengthAgrees.acM : LengthAgrees.Statement .acM :=
  lengthAgrees_one _ _ (fun _ => rfl) (lengthOf_high _ _).2

theorem LengthAgrees.acI (n : Byte) : LengthAgrees.Statement (.acI n) :=
  lengthAgrees_two _ _ n (fun _ => rfl) (by decide)

theorem LengthAgrees.suS (src : Reg) : LengthAgrees.Statement (.suS src) :=
  lengthAgrees_one _ _ (fun _ => rfl) (lengthOf_high _ _).2

theorem LengthAgrees.suM : LengthAgrees.Statement .suM :=
  lengthAgrees_one _ _ (fun _ => rfl) (lengthOf_high _ _).2

theorem LengthAgrees.suI (n : Byte) : LengthAgrees.Statement (.suI n) :=
  lengthAgrees_two _ _ n (fun _ => rfl) (by decide)

theorem LengthAgrees.sbS (src : Reg) : LengthAgrees.Statement (.sbS src) :=
  lengthAgrees_one _ _ (fun _ => rfl) (lengthOf_high _ _).2

theorem LengthAgrees.sbM : LengthAgrees.Statement .sbM :=
  lengthAgrees_one _ _ (fun _ => rfl) (lengthOf_high _ _).2

theorem LengthAgrees.sbI (n : Byte) : LengthAgrees.Statement (.sbI n) :=
  lengthAgrees_two _ _ n (fun _ => rfl) (by decide)

theorem LengthAgrees.ndS (src : Reg) : LengthAgrees.Statement (.ndS src) :=
  lengthAgrees_one _ _ (fun _ => rfl) (lengthOf_high _ _).2

theorem LengthAgrees.ndM : LengthAgrees.Statement .ndM :=
  lengthAgrees_one _ _ (fun _ => rfl) (lengthOf_high _ _).2

theorem LengthAgrees.ndI (n : Byte) : LengthAgrees.Statement (.ndI n) :=
  lengthAgrees_two _ _ n (fun _ => rfl) (by decide)

theorem LengthAgrees.xrS (src : Reg) : LengthAgrees.Statement (.xrS src) :=
  lengthAgrees_one _ _ (fun _ => rfl) (lengthOf_high _ _).2

theorem LengthAgrees.xrM : LengthAgrees.Statement .xrM :=
  lengthAgrees_one _ _ (fun _ => rfl) (lengthOf_high _ _).2

theorem LengthAgrees.xrI (n : Byte) : LengthAgrees.Statement (.xrI n) :=
  lengthAgrees_two _ _ n (fun _ => rfl) (by decide)

theorem LengthAgrees.orS (src : Reg) : LengthAgrees.Statement (.orS src) :=
  lengthAgrees_one _ _ (fun _ => rfl) (lengthOf_high _ _).2

theorem LengthAgrees.orM : LengthAgrees.Statement .orM :=
  lengthAgrees_one _ _ (fun _ => rfl) (lengthOf_high _ _).2

theorem LengthAgrees.orI (n : Byte) : LengthAgrees.Statement (.orI n) :=
  lengthAgrees_two _ _ n (fun _ => rfl) (by decide)

theorem LengthAgrees.cpS (src : Reg) : LengthAgrees.Statement (.cpS src) :=
  lengthAgrees_one _ _ (fun _ => rfl) (lengthOf_high _ _).2

theorem LengthAgrees.cpM : LengthAgrees.Statement .cpM :=
  lengthAgrees_one _ _ (fun _ => rfl) (lengthOf_high _ _).2

theorem LengthAgrees.cpI (n : Byte) : LengthAgrees.Statement (.cpI n) :=
  lengthAgrees_two _ _ n (fun _ => rfl) (by decide)

theorem LengthAgrees.shl : LengthAgrees.Statement .shl :=
  lengthAgrees_one _ _ (fun _ => rfl) (by rw [lengthOf_low]; rfl)

theorem LengthAgrees.shr : LengthAgrees.Statement .shr :=
  lengthAgrees_one _ _ (fun _ => rfl) (by rw [lengthOf_low]; rfl)

theorem LengthAgrees.jmp (t : Addr) : LengthAgrees.Statement (.jmp t) :=
  lengthAgrees_jump _ _ t (fun _ => rfl) (by decide)

theorem LengthAgrees.call (t : Addr) : LengthAgrees.Statement (.call t) :=
  lengthAgrees_jump _ _ t (fun _ => rfl) (by decide)

theorem LengthAgrees.jfc (t : Addr) : LengthAgrees.Statement (.jfc t) :=
  lengthAgrees_jump _ _ t (fun _ => rfl) (by decide)

theorem LengthAgrees.jfz (t : Addr) : LengthAgrees.Statement (.jfz t) :=
  lengthAgrees_jump _ _ t (fun _ => rfl) (by decide)

theorem LengthAgrees.jfs (t : Addr) : LengthAgrees.Statement (.jfs t) :=
  lengthAgrees_jump _ _ t (fun _ => rfl) (by decide)

theorem LengthAgrees.jfp (t : Addr) : LengthAgrees.Statement (.jfp t) :=
  lengthAgrees_jump _ _ t (fun _ => rfl) (by decide)

theorem LengthAgrees.jtc (t : Addr) : LengthAgrees.Statement (.jtc t) :=
  lengthAgrees_jump _ _ t (fun _ => rfl) (by decide)

theorem LengthAgrees.jtz (t : Addr) : LengthAgrees.Statement (.jtz t) :=
  lengthAgrees_jump _ _ t (fun _ => rfl) (by decide)

theorem LengthAgrees.jts (t : Addr) : LengthAgrees.Statement (.jts t) :=
  lengthAgrees_jump _ _ t (fun _ => rfl) (by decide)

theorem LengthAgrees.jtp (t : Addr) : LengthAgrees.Statement (.jtp t) :=
  lengthAgrees_jump _ _ t (fun _ => rfl) (by decide)

theorem LengthAgrees.cfc (t : Addr) : LengthAgrees.Statement (.cfc t) :=
  lengthAgrees_jump _ _ t (fun _ => rfl) (by decide)

theorem LengthAgrees.cfz (t : Addr) : LengthAgrees.Statement (.cfz t) :=
  lengthAgrees_jump _ _ t (fun _ => rfl) (by decide)

theorem LengthAgrees.cfs (t : Addr) : LengthAgrees.Statement (.cfs t) :=
  lengthAgrees_jump _ _ t (fun _ => rfl) (by decide)

theorem LengthAgrees.cfp (t : Addr) : LengthAgrees.Statement (.cfp t) :=
  lengthAgrees_jump _ _ t (fun _ => rfl) (by decide)

theorem LengthAgrees.ctc (t : Addr) : LengthAgrees.Statement (.ctc t) :=
  lengthAgrees_jump _ _ t (fun _ => rfl) (by decide)

theorem LengthAgrees.ctz (t : Addr) : LengthAgrees.Statement (.ctz t) :=
  lengthAgrees_jump _ _ t (fun _ => rfl) (by decide)

theorem LengthAgrees.cts (t : Addr) : LengthAgrees.Statement (.cts t) :=
  lengthAgrees_jump _ _ t (fun _ => rfl) (by decide)

theorem LengthAgrees.ctp (t : Addr) : LengthAgrees.Statement (.ctp t) :=
  lengthAgrees_jump _ _ t (fun _ => rfl) (by decide)

theorem LengthAgrees.rfc : LengthAgrees.Statement .rfc :=
  lengthAgrees_one _ _ (fun _ => rfl) (by rw [lengthOf_low]; rfl)

theorem LengthAgrees.rfz : LengthAgrees.Statement .rfz :=
  lengthAgrees_one _ _ (fun _ => rfl) (by rw [lengthOf_low]; rfl)

theorem LengthAgrees.rfs : LengthAgrees.Statement .rfs :=
  lengthAgrees_one _ _ (fun _ => rfl) (by rw [lengthOf_low]; rfl)

theorem LengthAgrees.rfp : LengthAgrees.Statement .rfp :=
  lengthAgrees_one _ _ (fun _ => rfl) (by rw [lengthOf_low]; rfl)

theorem LengthAgrees.rtc : LengthAgrees.Statement .rtc :=
  lengthAgrees_one _ _ (fun _ => rfl) (by rw [lengthOf_low]; rfl)

theorem LengthAgrees.rtz : LengthAgrees.Statement .rtz :=
  lengthAgrees_one _ _ (fun _ => rfl) (by rw [lengthOf_low]; rfl)

theorem LengthAgrees.rts : LengthAgrees.Statement .rts :=
  lengthAgrees_one _ _ (fun _ => rfl) (by rw [lengthOf_low]; rfl)

theorem LengthAgrees.rtp : LengthAgrees.Statement .rtp :=
  lengthAgrees_one _ _ (fun _ => rfl) (by rw [lengthOf_low]; rfl)

theorem LengthAgrees.rst (k : BitVec 3) : LengthAgrees.Statement (.rst k) :=
  lengthAgrees_one _ _ (fun _ => rfl) (by rw [lengthOf_low]; rfl)

theorem LengthAgrees.inp (m : BitVec 3) : LengthAgrees.Statement (.inp m) :=
  lengthAgrees_one _ _ (fun _ => rfl) (by revert m; decide)

theorem LengthAgrees.io (r : BitVec 2) (m : BitVec 3) : LengthAgrees.Statement (.io r m) :=
  lengthAgrees_one _ _ (fun _ => rfl) (by revert r m; decide)

theorem LengthAgrees.unassigned0 (aaa : BitVec 3) : LengthAgrees.Statement (.unassigned0 aaa) :=
  lengthAgrees_one _ _ (fun _ => rfl) (by rw [lengthOf_low]; rfl)

theorem LengthAgrees.unassigned1 (aaa : BitVec 3) : LengthAgrees.Statement (.unassigned1 aaa) :=
  lengthAgrees_one _ _ (fun _ => rfl) (by rw [lengthOf_low]; rfl)

theorem LengthAgrees.unassigned2 (aaa : BitVec 3) : LengthAgrees.Statement (.unassigned2 aaa) :=
  lengthAgrees_one _ _ (fun _ => rfl) (by rw [lengthOf_low]; rfl)

theorem LengthAgrees.unassigned3 (aaa : BitVec 3) : LengthAgrees.Statement (.unassigned3 aaa) :=
  lengthAgrees_one _ _ (fun _ => rfl) (by rw [lengthOf_low]; rfl)

end Sys2Proof.Laws
end

