-- ==== Sys2Proof/Laws/Step.lean ====
section
/-! SUPPORT. Everything an instruction boundary and a step can do, said once: the invariants of a step and the
properties of a history follow from these and from `exec_effect`. -/

namespace Sys2Proof.Machine

/-! ### Histories -/

/-- Replaying a history in two parts. -/
theorem replay_append (newer older : List BusCycle) (m : Memory) :
    replay (newer ++ older) m = replay newer (replay older m) := by
  induction newer with
  | nil => rfl
  | cons c newer ih => cases c <;> simp [replay, ih]

/-- The reads of a history in two parts. -/
theorem readsExplained_append (fetches : Bool) (newer older : List BusCycle) (m : Memory) :
    readsExplained fetches (newer ++ older) m ↔
      readsExplained fetches newer (replay older m) ∧ readsExplained fetches older m := by
  induction newer with
  | nil => simp [readsExplained]
  | cons c newer ih => cases c <;> simp [readsExplained, ih, replay_append, and_assoc]

/-- Asking for less of a history. -/
theorem readsExplained_mono {f g : Bool} (hfg : g = true → f = true) {new : List BusCycle} {m : Memory}
    (h : readsExplained f new m) : readsExplained g new m := by
  induction new with
  | nil => trivial
  | cons c new ih =>
    cases c with
    | pci a b k => exact ⟨fun hg => h.1 (hfg hg), ih h.2⟩
    | pcr a b => exact ⟨h.1, ih h.2⟩
    | pcw a b => exact ih h
    | pcc a b k => exact ih h

/-! ### The fetch -/

/-- A first byte asks for one, two or three bytes (30_encoding.md R92). -/
theorem lengthOf_cases (b : Byte) : lengthOf b = 1 ∨ lengthOf b = 2 ∨ lengthOf b = 3 := by
  unfold lengthOf
  split
  · simp
  · split <;> simp

/-- INT is not enabled where the list of moves says so, or is empty (60_exceptions.md R232). -/
theorem noRequest_eq (s : State) : s.noRequest = (s.intMoves.headD none).isNone := by
  unfold State.noRequest
  rw [sampleInt_eq]

/-- A PCI cycle of a state with the memory and parameters of `s` brings the byte supplied in `s`
(60_exceptions.md R233). -/
theorem fetchByte_supplied {s t : State} {a : Addr} {d : Option Byte} {b : Byte} (hm : t.mem = s.mem)
    (hp : t.params = s.params) (ha : t.pc = a) (advance ack : Bool) (h : s.supplied a d = .ok b) :
    fetchByte d advance ack t = .ok (b, acceptByte advance ack b t) := by
  subst ha
  cases d with
  | some d =>
    injection h with h
    rw [h]
    rfl
  | none => exact fetchByte_memory advance ack ((readByte_congr hm hp t.pc).trans h)

/-- A PCI cycle for which no byte is supplied stops as the read of memory does. -/
theorem fetchByte_not_supplied {s t : State} {a : Addr} {d : Option Byte} {f : Fault} (hm : t.mem = s.mem)
    (hp : t.params = s.params) (ha : t.pc = a) (advance ack : Bool) (h : s.supplied a d = .error f) :
    fetchByte d advance ack t = .error f := by
  subst ha
  cases d with
  | some d => cases h
  | none =>
    have : readByte t t.pc = .error f := (readByte_congr hm hp t.pc).trans h
    simp [fetchByte, this]

/-- With a request the boundary is an interrupt fetch, one move used up (60_exceptions.md R232, R237). -/
theorem nextInstr_request {s : State} {ins : Insertion} {moves : List (Option Insertion)}
    (h : s.intMoves = some ins :: moves) : nextInstr s = fetchInserted ins { s with intMoves := moves } := by
  unfold nextInstr
  rw [sampleInt_eq, h]
  rfl

/-- The cycles of a fetch: they write nothing, they are no I/O, and those that memory answered are explained. -/
structure FetchHistory (explained : Bool) (new : List BusCycle) (m : Memory) : Prop where
  reads : readsExplained explained new m
  quiet : ∀ n, replay new n = n
  noIo : ∀ c ∈ new, c.isPcc = false

/-- The later bytes of an instruction were fetched from `at1` on by the cycles `new`, one for each byte, the first
of them at `at1`, and `pc` ended at `pc` (30_encoding.md R92, 60_exceptions.md R235). -/
structure LaterBytes (b1 : Byte) (advance : Bool) (at1 : Addr) (new : List BusCycle) (pc : Addr) : Prop where
  count : new.length + 1 = lengthOf b1
  first : ∀ c, new.getLast? = some c → ∃ b, c = .pci at1 b false
  last : pc = if advance then at1 + BitVec.ofNat 14 new.length else at1

/-- Fetching the later bytes of an instruction moves `pc`, adds PCI cycles to the history, and sets the
instruction register (30_encoding.md R108). -/
theorem fetchRest_instr {b1 : Byte} {at0 : Addr} {d2 d3 : Option Byte} {advance : Bool} {s u : State} {i : Instr}
    (h : fetchRest b1 at0 d2 d3 advance s = .instr i u) :
    ∃ new pc, u = { s with ir := b1, iaddr := at0, pc := pc, bus := new ++ s.bus } ∧
      FetchHistory (d2.isNone && d3.isNone) new s.mem ∧ LaterBytes b1 advance s.pc new pc := by
  unfold fetchRest at h
  simp only at h
  split at h
  · cases h
    rename_i hl
    exact ⟨[], s.pc, rfl, ⟨trivial, fun _ => rfl, by simp⟩, hl.symm, by simp, by simp⟩
  · rename_i hl
    split at h
    · cases h
    · rename_i b2 s2 h2
      cases h
      obtain ⟨e2, rfl⟩ := fetchByte_ok h2
      clear h2
      refine ⟨[.pci s.pc b2 false], _, rfl, ⟨⟨fun hd => ?_, trivial⟩, fun _ => rfl, by simp [BusCycle.isPcc]⟩,
        hl.symm, by simp, rfl⟩
      cases e2 with
      | inl e => simp [e] at hd
      | inr e => exact (readByte_ok e.2).2
  · rename_i hl1 hl2
    have hl : lengthOf b1 = 3 := ((lengthOf_cases b1).resolve_left hl1).resolve_left hl2
    split at h
    · cases h
    · rename_i b2 s2 h2
      split at h
      · cases h
      rename_i b3 s3 h3
      cases h
      obtain ⟨e2, rfl⟩ := fetchByte_ok h2
      obtain ⟨e3, rfl⟩ := fetchByte_ok h3
      clear h2 h3
      refine ⟨[.pci _ b3 false, .pci s.pc b2 false], _, rfl, ⟨⟨fun hd => ?_, fun hd => ?_, trivial⟩, fun _ => rfl,
        by simp [BusCycle.isPcc]⟩, hl.symm, by simp, ?_⟩
      · cases e3 with
        | inl e => simp [e] at hd
        | inr e => exact (readByte_ok e.2).2
      · cases e2 with
        | inl e => simp [e] at hd
        | inr e => exact (readByte_ok e.2).2
      · cases advance <;> simp [acceptByte, BitVec.add_assoc]

/-- Fetching the later bytes never ends in idling. -/
theorem fetchRest_not_idle {b1 : Byte} {at0 : Addr} {d2 d3 : Option Byte} {advance : Bool} {s u : State} :
    fetchRest b1 at0 d2 d3 advance s ≠ .idle u := by
  intro h
  unfold fetchRest at h
  simp only at h
  split at h
  · cases h
  · split at h <;> cases h
  · split at h
    · cases h
    · split at h <;> cases h

/-! ### The instruction boundary -/

/-- An instruction was fetched: the CPU was RUNNING or a request was made; it is RUNNING now, one move of the
interrupt logic is used up, and the history has new PCI cycles (30_encoding.md R108, 60_exceptions.md R234). -/
theorem nextInstr_instr {s u : State} {i : Instr} (h : nextInstr s = .instr i u) :
    (s.run = .running ∨ s.noRequest = false) ∧
      ∃ new pc ir, u = { s with
          ir := ir, iaddr := s.pc, pc := pc, bus := new ++ s.bus, run := .running, intMoves := s.intMoves.tail } ∧
        new ≠ [] ∧ FetchHistory s.noRequest new s.mem ∧ (s.noRequest = true → readByte s s.pc = .ok ir) := by
  unfold nextInstr at h
  rw [sampleInt_eq] at h
  have hn := noRequest_eq s
  split at h
  · rename_i ins s1 e
    obtain ⟨e1, rfl⟩ := Prod.mk.inj e
    rw [e1] at hn
    unfold fetchInserted at h
    split at h
    · cases h
    · rename_i b1 s2 h1
      obtain ⟨h1, rfl⟩ := fetchByte_ok h1
      obtain ⟨new, pc, rfl, hf, -⟩ := fetchRest_instr h
      refine ⟨.inr hn, new ++ [.pci s.pc b1 true], pc, b1, ?_, by simp, ⟨?_, fun m => ?_, fun c hc => ?_⟩, ?_⟩
      · simp [acceptByte, takeInterrupt]
      · rw [hn, readsExplained_append]
        exact ⟨readsExplained_mono (by simp) hf.reads, by simp [readsExplained]⟩
      · rw [replay_append, hf.quiet]
        rfl
      · rcases List.mem_append.mp hc with hc | hc
        · exact hf.noIo c hc
        · rw [List.mem_singleton.mp hc]
          rfl
      · intro ht
        rw [hn] at ht
        cases ht
  · rename_i s1 e
    obtain ⟨e1, rfl⟩ := Prod.mk.inj e
    rw [e1] at hn
    split at h
    · cases h
    · rename_i hrun
      unfold fetchFromMemory at h
      split at h
      · cases h
      · rename_i b1 s2 h1
        obtain ⟨e2, rfl⟩ := fetchByte_ok h1
        obtain ⟨new, pc, rfl, hf, -⟩ := fetchRest_instr h
        replace h1 : readByte s s.pc = .ok b1 := by
          cases e2 with
          | inl e => cases e
          | inr e => exact e.2
        refine ⟨.inl hrun, new ++ [.pci s.pc b1 false], pc, b1, ?_, by simp, ⟨?_, fun m => ?_, fun c hc => ?_⟩,
          fun _ => h1⟩
        · simp [acceptByte, hrun]
        · rw [hn, readsExplained_append]
          exact ⟨hf.reads, fun _ => (readByte_ok h1).2, trivial⟩
        · rw [replay_append, hf.quiet]
          rfl
        · rcases List.mem_append.mp hc with hc | hc
          · exact hf.noIo c hc
          · rw [List.mem_singleton.mp hc]
            rfl

/-- The CPU idles where it is STOPPED and no request is made (60_exceptions.md R234). -/
theorem nextInstr_idle {s u : State} (h : nextInstr s = .idle u) :
    s.run = .stopped ∧ s.noRequest = true ∧ u = { s with intMoves := s.intMoves.tail } := by
  unfold nextInstr at h
  rw [sampleInt_eq] at h
  have hn := noRequest_eq s
  split at h
  · unfold fetchInserted at h
    split at h
    · cases h
    · exact absurd h fetchRest_not_idle
  · rename_i e
    obtain ⟨e1, rfl⟩ := Prod.mk.inj e
    rw [e1] at hn
    split at h
    · cases h
      exact ⟨‹_›, hn, rfl⟩
    · unfold fetchFromMemory at h
      split at h
      · cases h
      · exact absurd h fetchRest_not_idle

/-- A step either idles or performs the instruction its boundary leads to (30_encoding.md R108). -/
theorem step_next {s t : State} (h : step s = .next t) :
    (s.run = .stopped ∧ s.noRequest = true ∧ t = { s with intMoves := s.intMoves.tail }) ∨
      ∃ i u, nextInstr s = .instr i u ∧ exec i u = .next t := by
  unfold step at h
  split at h
  · cases h
    exact .inl (nextInstr_idle ‹_›)
  · exact .inr ⟨_, _, ‹_›, h⟩
  · cases h

end Sys2Proof.Machine
end

