-- ==== Sys2Proof/Tests/Slice0.lean ====
section
/-! SUPPORT. The model's own tests. Words are written out from the encodings of spec/opcode_table.json; results
are those of 95_test_vectors.md unless a comment says otherwise. -/

namespace Sys2Proof.Tests

open Sys2Proof Sys2Proof.Machine

/-! ### Well-formedness: an ill-formed term for each check -/

theorem test_wf_refuses_io_zero : (Instr.io 0 3).wf = false := by decide

theorem test_wf_refuses_unassigned0_halt : (Instr.unassigned0 0).wf = false := by decide

theorem test_wf_refuses_unassigned1_halt : (Instr.unassigned1 0).wf = false := by decide

theorem test_wf_refuses_unassigned2_shl : (Instr.unassigned2 0).wf = false := by decide

theorem test_wf_refuses_unassigned2_shr : (Instr.unassigned2 1).wf = false := by decide

theorem test_wf_admits_bounds :
    (Instr.io 1 0).wf = true ∧ (Instr.unassigned0 1).wf = true ∧ (Instr.unassigned1 7).wf = true ∧
      (Instr.unassigned2 2).wf = true ∧ (Instr.unassigned3 0).wf = true := by
  decide

/-! ### Decoding: a word for every constructor, bit by bit from its encoding -/

theorem test_decode_halt :
    firstInstr true [0b00000001] = some .halt ∧
      firstInstr true [0b11111111] = some .haltFF := by
  decide

theorem test_decode_move :
    firstInstr true [0b11010010] = some (.moveRR .c .c) ∧
      firstInstr true [0b11101111] = some (.moveRM .h) ∧
      firstInstr true [0b11111101] = some (.moveMR .h) ∧
      firstInstr true [0b00100110, 0b11100111] = some (.moviR .e 0xE7) ∧
      firstInstr true [0b00111110, 0b00001100] = some (.moviM 0x0C) := by
  decide

theorem test_decode_operation_ad :
    firstInstr true [0b10000110] = some (.adS .l) ∧
      firstInstr true [0b10000111] = some .adM ∧
      firstInstr true [0b00000100, 0b01111011] = some (.adI 0x7B) := by
  decide

theorem test_decode_operation_ac :
    firstInstr true [0b10001000] = some (.acS .a) ∧
      firstInstr true [0b10001111] = some .acM ∧
      firstInstr true [0b00001100, 0b11101010] = some (.acI 0xEA) := by
  decide

theorem test_decode_operation_su :
    firstInstr true [0b10010001] = some (.suS .b) ∧
      firstInstr true [0b10010111] = some .suM ∧
      firstInstr true [0b00010100, 0b01011001] = some (.suI 0x59) := by
  decide

theorem test_decode_operation_sb :
    firstInstr true [0b10011010] = some (.sbS .c) ∧
      firstInstr true [0b10011111] = some .sbM ∧
      firstInstr true [0b00011100, 0b11001000] = some (.sbI 0xC8) := by
  decide

theorem test_decode_operation_nd :
    firstInstr true [0b10100011] = some (.ndS .d) ∧
      firstInstr true [0b10100111] = some .ndM ∧
      firstInstr true [0b00100100, 0b00110111] = some (.ndI 0x37) := by
  decide

theorem test_decode_operation_xr :
    firstInstr true [0b10101100] = some (.xrS .e) ∧
      firstInstr true [0b10101111] = some .xrM ∧
      firstInstr true [0b00101100, 0b10100110] = some (.xrI 0xA6) := by
  decide

theorem test_decode_operation_or :
    firstInstr true [0b10110101] = some (.orS .h) ∧
      firstInstr true [0b10110111] = some .orM ∧
      firstInstr true [0b00110100, 0b00010101] = some (.orI 0x15) := by
  decide

theorem test_decode_operation_cp :
    firstInstr true [0b10111110] = some (.cpS .l) ∧
      firstInstr true [0b10111111] = some .cpM ∧
      firstInstr true [0b00111100, 0b10000100] = some (.cpI 0x84) := by
  decide

theorem test_decode_shift :
    firstInstr true [0b00000010] = some .shl ∧
      firstInstr true [0b00001010] = some .shr := by
  decide

theorem test_decode_jump :
    firstInstr true [0b01000100, 0b10010111, 0b00100100] = some (.jmp 0x2497) ∧
      firstInstr true [0b01111110, 0b01101100, 0b11101001] = some (.call 0x296C) := by
  decide

theorem test_decode_jump_conditional :
    firstInstr true [0b01000000, 0b01000001, 0b00101110] = some (.jfc 0x2E41) ∧
      firstInstr true [0b01001000, 0b00010110, 0b11110011] = some (.jfz 0x3316) ∧
      firstInstr true [0b01010000, 0b11101011, 0b00110111] = some (.jfs 0x37EB) ∧
      firstInstr true [0b01011000, 0b11000000, 0b11111100] = some (.jfp 0x3CC0) ∧
      firstInstr true [0b01100000, 0b10010101, 0b00000001] = some (.jtc 0x0195) ∧
      firstInstr true [0b01101000, 0b01101010, 0b11000110] = some (.jtz 0x066A) ∧
      firstInstr true [0b01110000, 0b00111111, 0b00001011] = some (.jts 0x0B3F) ∧
      firstInstr true [0b01111000, 0b00010100, 0b11010000] = some (.jtp 0x1014) := by
  decide

theorem test_decode_call_conditional :
    firstInstr true [0b01000010, 0b11101001, 0b00010100] = some (.cfc 0x14E9) ∧
      firstInstr true [0b01001010, 0b10111110, 0b11011001] = some (.cfz 0x19BE) ∧
      firstInstr true [0b01010010, 0b10010011, 0b00011110] = some (.cfs 0x1E93) ∧
      firstInstr true [0b01011010, 0b01101000, 0b11100011] = some (.cfp 0x2368) ∧
      firstInstr true [0b01100010, 0b00111101, 0b00101000] = some (.ctc 0x283D) ∧
      firstInstr true [0b01101010, 0b00010010, 0b11101101] = some (.ctz 0x2D12) ∧
      firstInstr true [0b01110010, 0b11100111, 0b00110001] = some (.cts 0x31E7) ∧
      firstInstr true [0b01111010, 0b10111100, 0b11110110] = some (.ctp 0x36BC) := by
  decide

theorem test_decode_return :
    firstInstr true [0b00000111] = some .rfc ∧
      firstInstr true [0b00001111] = some .rfz ∧
      firstInstr true [0b00010111] = some .rfs ∧
      firstInstr true [0b00011111] = some .rfp ∧
      firstInstr true [0b00100111] = some .rtc ∧
      firstInstr true [0b00101111] = some .rtz ∧
      firstInstr true [0b00110111] = some .rts ∧
      firstInstr true [0b00111111] = some .rtp := by
  decide

theorem test_decode_restart :
    firstInstr true [0b00110101] = some (.rst 6) := by
  decide

theorem test_decode_io :
    firstInstr true [0b01000011] = some (.inp 1) ∧
      firstInstr true [0b01101001] = some (.io 2 4) := by
  decide

theorem test_decode_unassigned :
    firstInstr true [0b00101000] = some (.unassigned0 5) ∧
      firstInstr true [0b00101001] = some (.unassigned1 5) ∧
      firstInstr true [0b00101010] = some (.unassigned2 5) ∧
      firstInstr true [0b00101011] = some (.unassigned3 5) := by
  decide

/-- The two codings of HALT, and a byte that is no instruction but one away from SHR. -/
theorem test_decode_neighbours :
    firstInstr true [0x01] = some .halt ∧ firstInstr true [0xFF] = some .haltFF ∧
      firstInstr true [0x12] = some (.unassigned2 2) ∧ firstInstr true [0x0F] = some .rfz := by
  decide

/-- Vector J17: the other byte order of a jump's address. -/
theorem test_decode_high_first : firstInstr false [0x44, 0x00, 0x02] = some (.jmp 0x0002) := by decide

theorem test_decode_truncated : decode true [0x44, 0x23] = .error (.truncated 3 2) := by rfl

/-- The numbering of spec/opcode_table.json: the first byte is bits 7..0. -/
theorem test_table_word :
    decodeTableWord 24 0x012344 = some (.jmp 0x0123) ∧ decodeTableWord 16 0x2A2E = some (.moviR .h 0x2A) ∧
      decodeTableWord 8 0x2A2E = some (.moviR .h 0) ∧ decodeTableWord 8 0x5D = some (.io 1 6) := by
  decide

/-! ### Helpers -/

/-- A RUNNING machine with bytes from address `pc` on. -/
def machine (pc : Addr) (mem : Memory) : State := { State.launch {} pc mem [] [] with run := .running }

/-- The same with an accumulator and a carry. -/
def machineA (pc : Addr) (mem : Memory) (a : Byte) (c : Bool) : State :=
  let s := machine pc mem
  { s with regs := { s.regs with a := a }, flags := { s.flags with c := c } }

/-- The next state, if there is one. -/
def after (s : State) : Option State :=
  match step s with
  | .next t => some t
  | .fault _ => none
  | .refused _ => none

/-- The fault, if there is one. -/
def faultOf (s : State) : Option Fault :=
  match step s with
  | .fault f => some f
  | .next _ => none
  | .refused _ => none

/-- The refusal, if there is one. -/
def refusalOf (s : State) : Option Refusal :=
  match step s with
  | .refused r => some r
  | .next _ => none
  | .fault _ => none

/-- The accumulator and the flip-flops C Z S P after one step, as 95_test_vectors.md section 2.3 writes them. -/
def aczsp (s : State) : Option (Byte × Bool × Bool × Bool × Bool) :=
  (after s).map fun t => (t.regs.a, t.flags.c, t.flags.z, t.flags.s, t.flags.p)

/-- `pc` and the outstanding addresses after one step. -/
def flow (s : State) : Option (Addr × List Addr) := (after s).map fun t => (t.pc, t.stk.live)

/-- A stack with the outstanding addresses of 95_test_vectors.md section 2.6. -/
def twoDeep : AddrStack := { words := #v[0x0005, 0x0123, 0, 0, 0, 0, 0], sp := 2 }

/-- A full stack. -/
def full : AddrStack := { words := #v[1, 2, 3, 4, 5, 6, 7], sp := 7 }

/-! ### MOVE and MOVE IMMEDIATE -/

/-- M4. -/
theorem test_move_c_m :
    (after (let s := machine 0 [(0, 0xD7), (0x120, 0x7E)]
            { s with regs := { s.regs with h := 0x01, l := 0x20 } })).map
      (fun t => (t.regs.c, t.pc, t.bus)) =
      some (0x7E, 1, [.pcr 0x120 0x7E, .pci 0 0xD7 false]) := by
  decide

/-- M5. -/
theorem test_move_h_m :
    (after (let s := machine 0 [(0, 0xEF), (0x120, 0x02)]
            { s with regs := { s.regs with h := 0xC1, l := 0x20 } })).map
      (fun t => (t.regs.h, t.regs.l)) = some (0x02, 0x20) := by
  decide

/-- M1. -/
theorem test_move_a_b :
    (after (let s := machine 0x100 [(0x100, 0xC1)]
            { s with regs := { s.regs with b := 0x5A } })).map
      (fun t => (t.regs.a, t.regs.b, t.pc)) = some (0x5A, 0x5A, 0x101) := by
  decide

/-- M6. -/
theorem test_move_from_unwritten :
    faultOf (let s := machine 0 [(0, 0xC7)]
             { s with regs := { s.regs with l := 0x80 } }) = some (.unwrittenRead 0x80) := by
  decide

/-- M7. -/
theorem test_move_m_a :
    (after (let s := machineA 0 [(0, 0xF8)] 0x12 false
            { s with regs := { s.regs with h := 0x3F, l := 0xFF } })).map
      (fun t => (t.mem, t.pc)) = some ([(0, 0xF8), (0x3FFF, 0x12)], 1) := by
  decide

/-- M11. -/
theorem test_movi_wraps :
    (after (machine 0x3FFF [(0, 0x55), (0x3FFF, 0x06)])).map (fun t => (t.regs.a, t.pc)) = some (0x55, 1) := by
  decide

/-- M12. -/
theorem test_movi_m :
    (after (let s := machine 0 [(0, 0x3E), (1, 0x3C)]
            { s with regs := { s.regs with h := 0x01 } })).map (fun t => (t.mem.byteAt 0x100, t.pc)) =
      some (some 0x3C, 2) := by
  decide

/-! ### The eight operations -/

theorem test_adi_first :
    aczsp (machineA 0 [(0, 0x04), (1, 0x01)] 0x7F false) = some (0x80, false, false, true, true) := by
  decide

theorem test_adi_second :
    aczsp (machineA 0 [(0, 0x04), (1, 0x34)] 0x12 true) = some (0x46, false, false, false, true) := by
  decide

theorem test_aci_first :
    aczsp (machineA 0 [(0, 0x0C), (1, 0xFF)] 0xFF true) = some (0xFF, true, false, true, false) := by
  decide

theorem test_aci_second :
    aczsp (machineA 0 [(0, 0x0C), (1, 0x00)] 0x7F true) = some (0x80, false, false, true, true) := by
  decide

theorem test_sui_first :
    aczsp (machineA 0 [(0, 0x14), (1, 0x01)] 0x00 false) = some (0xFF, true, false, true, false) := by
  decide

theorem test_sui_second :
    aczsp (machineA 0 [(0, 0x14), (1, 0x20)] 0x10 true) = some (0xF0, true, false, true, false) := by
  decide

theorem test_sbi_first :
    aczsp (machineA 0 [(0, 0x1C), (1, 0xFF)] 0x00 true) = some (0x00, true, true, false, false) := by
  decide

theorem test_sbi_second :
    aczsp (machineA 0 [(0, 0x1C), (1, 0x0F)] 0x10 true) = some (0x00, false, true, false, false) := by
  decide

theorem test_ndi_first :
    aczsp (machineA 0 [(0, 0x24), (1, 0x80)] 0x81 false) = some (0x80, false, false, true, true) := by
  decide

theorem test_ndi_second :
    aczsp (machineA 0 [(0, 0x24), (1, 0xFF)] 0xFF true) = some (0xFF, false, false, true, false) := by
  decide

theorem test_xri_first :
    aczsp (machineA 0 [(0, 0x2C), (1, 0x01)] 0x0F false) = some (0x0E, false, false, false, true) := by
  decide

theorem test_xri_second :
    aczsp (machineA 0 [(0, 0x2C), (1, 0x5A)] 0x5A true) = some (0x00, false, true, false, false) := by
  decide

theorem test_ori_first :
    aczsp (machineA 0 [(0, 0x34), (1, 0x06)] 0x01 false) = some (0x07, false, false, false, true) := by
  decide

theorem test_ori_second :
    aczsp (machineA 0 [(0, 0x34), (1, 0x00)] 0x00 true) = some (0x00, false, true, false, false) := by
  decide

theorem test_cpi_first :
    aczsp (machineA 0 [(0, 0x3C), (1, 0x80)] 0x00 false) = some (0x00, true, false, true, true) := by
  decide

theorem test_cpi_second :
    aczsp (machineA 0 [(0, 0x3C), (1, 0x10)] 0x20 true) = some (0x20, false, false, false, true) := by
  decide

theorem test_ad_a : aczsp (machineA 0 [(0, 0x80)] 0x81 false) = some (0x02, true, false, false, true) := by decide

theorem test_su_a : aczsp (machineA 0 [(0, 0x90)] 0x77 false) = some (0x00, false, true, false, false) := by decide

theorem test_xr_a : aczsp (machineA 0 [(0, 0xA8)] 0x77 false) = some (0x00, false, true, false, false) := by decide

theorem test_nd_a : aczsp (machineA 0 [(0, 0xA0)] 0x80 true) = some (0x80, false, false, true, true) := by decide

theorem test_or_a : aczsp (machineA 0 [(0, 0xB0)] 0x00 true) = some (0x00, false, true, false, false) := by decide

theorem test_cp_a : aczsp (machineA 0 [(0, 0xB8)] 0x9C false) = some (0x9C, false, true, false, false) := by decide

theorem test_ac_d :
    aczsp (let s := machineA 0 [(0, 0x8B)] 0xFE true
           { s with regs := { s.regs with d := 0x01 } }) = some (0x00, true, true, false, false) := by
  decide

theorem test_sb_l : aczsp (machineA 0 [(0, 0x9E)] 0x00 true) = some (0xFF, true, false, true, false) := by decide

theorem test_ad_m :
    aczsp (let s := machineA 0 [(0, 0x87), (0x234, 0x0F)] 0xF1 false
           { s with regs := { s.regs with h := 0xC2, l := 0x34 } }) = some (0x00, true, true, false, false) := by
  decide

theorem test_cp_m :
    aczsp (let s := machineA 0 [(0, 0xBF), (0x3FFF, 0x01)] 0x00 false
           { s with regs := { s.regs with h := 0xFF, l := 0xFF } }) = some (0x00, true, false, true, false) := by
  decide

/-- Program P2, the step at 000D. -/
theorem test_xr_m :
    aczsp (let s := machineA 0x0D [(0x0D, 0xAF), (0x100, 0x3C)] 0xC3 false
           { s with regs := { s.regs with h := 0x01 } }) = some (0xFF, false, false, true, false) := by
  decide

/-- The values of the immediate form's vector, the operand in memory. -/
theorem test_ac_m :
    aczsp (let s := machineA 0 [(0, 0x8F), (0x80, 0xFF)] 0xFF true
           { s with regs := { s.regs with l := 0x80 } }) = some (0xFF, true, false, true, false) := by
  decide

/-- The values of the immediate form's vector, the operand in memory. -/
theorem test_su_m :
    aczsp (let s := machineA 0 [(0, 0x97), (0x80, 0x01)] 0x00 false
           { s with regs := { s.regs with l := 0x80 } }) = some (0xFF, true, false, true, false) := by
  decide

/-- The values of the immediate form's vector, the operand in memory. -/
theorem test_sb_m :
    aczsp (let s := machineA 0 [(0, 0x9F), (0x80, 0x0F)] 0x10 true
           { s with regs := { s.regs with l := 0x80 } }) = some (0x00, false, true, false, false) := by
  decide

/-- The values of the immediate form's vector, the operand in memory. -/
theorem test_nd_m :
    aczsp (let s := machineA 0 [(0, 0xA7), (0x80, 0x80)] 0x81 false
           { s with regs := { s.regs with l := 0x80 } }) = some (0x80, false, false, true, true) := by
  decide

/-- The values of the immediate form's vector, the operand in memory. -/
theorem test_or_m :
    aczsp (let s := machineA 0 [(0, 0xB7), (0x80, 0x06)] 0x01 false
           { s with regs := { s.regs with l := 0x80 } }) = some (0x07, false, false, false, true) := by
  decide

/-! ### Shift -/

/-- Section 2.4, first row: Z S P survive. -/
theorem test_shl :
    aczsp (let s := machineA 0 [(0, 0x02)] 0x81 false
           { s with flags := { s.flags with z := true, p := true } }) = some (0x03, true, true, false, true) := by
  decide

theorem test_shr :
    aczsp (let s := machineA 0 [(0, 0x0A)] 0x81 false
           { s with flags := { s.flags with z := true, p := true } }) = some (0xC0, true, true, false, true) := by
  decide

/-! ### Control transfer -/

/-- J2. -/
theorem test_jmp : flow (machine 0x10 [(0x10, 0x7C), (0x11, 0x23), (0x12, 0xC1)]) = some (0x123, []) := by decide

/-- J4. -/
theorem test_call_wraps :
    flow (machine 0x3FFD [(0x3FFD, 0x46), (0x3FFE, 0x34), (0x3FFF, 0x12)]) = some (0x1234, [0]) := by
  decide

/-- J16. -/
theorem test_call_overflow :
    faultOf { machine 2 [(2, 0x46), (3, 0x02), (4, 0x00)] with stk := full } = some (.stackOverflow 2) := by
  decide

/-- Both outcomes, the selected flip-flop alone deciding (as J5 to J13). -/
theorem test_jfc :
    flow { machine 0x20 [(0x20, 0x40), (0x21, 0x00), (0x22, 0x03)] with flags := { c := false, z := true, s := true, p := true } } =
        some (0x300, []) ∧
      flow { machine 0x20 [(0x20, 0x40), (0x21, 0x00), (0x22, 0x03)] with flags := { c := true, z := false, s := false, p := false } } =
        some (0x23, []) := by
  decide

/-- Both outcomes, the selected flip-flop alone deciding (as J5 to J13). -/
theorem test_jtc :
    flow { machine 0x20 [(0x20, 0x60), (0x21, 0x00), (0x22, 0x03)] with flags := { c := true, z := false, s := false, p := false } } =
        some (0x300, []) ∧
      flow { machine 0x20 [(0x20, 0x60), (0x21, 0x00), (0x22, 0x03)] with flags := { c := false, z := true, s := true, p := true } } =
        some (0x23, []) := by
  decide

/-- Both outcomes, the selected flip-flop alone deciding (as J5 to J13). -/
theorem test_cfc :
    flow { machine 0x20 [(0x20, 0x42), (0x21, 0x00), (0x22, 0x03)] with flags := { c := false, z := true, s := true, p := true } } =
        some (0x300, [0x23]) ∧
      flow { machine 0x20 [(0x20, 0x42), (0x21, 0x00), (0x22, 0x03)] with flags := { c := true, z := false, s := false, p := false } } =
        some (0x23, []) := by
  decide

/-- Both outcomes, the selected flip-flop alone deciding (as J5 to J13). -/
theorem test_ctc :
    flow { machine 0x20 [(0x20, 0x62), (0x21, 0x00), (0x22, 0x03)] with flags := { c := true, z := false, s := false, p := false } } =
        some (0x300, [0x23]) ∧
      flow { machine 0x20 [(0x20, 0x62), (0x21, 0x00), (0x22, 0x03)] with flags := { c := false, z := true, s := true, p := true } } =
        some (0x23, []) := by
  decide

/-- Both outcomes, the selected flip-flop alone deciding (section 2.6). -/
theorem test_rfc :
    flow { machine 0x30 [(0x30, 0x07)] with stk := twoDeep, flags := { c := false, z := true, s := true, p := true } } =
        some (0x123, [0x5]) ∧
      flow { machine 0x30 [(0x30, 0x07)] with stk := twoDeep, flags := { c := true, z := false, s := false, p := false } } =
        some (0x31, [0x5, 0x123]) := by
  decide

/-- Both outcomes, the selected flip-flop alone deciding (section 2.6). -/
theorem test_rtc :
    flow { machine 0x30 [(0x30, 0x27)] with stk := twoDeep, flags := { c := true, z := false, s := false, p := false } } =
        some (0x123, [0x5]) ∧
      flow { machine 0x30 [(0x30, 0x27)] with stk := twoDeep, flags := { c := false, z := true, s := true, p := true } } =
        some (0x31, [0x5, 0x123]) := by
  decide

/-- Both outcomes, the selected flip-flop alone deciding (as J5 to J13). -/
theorem test_jfz :
    flow { machine 0x20 [(0x20, 0x48), (0x21, 0x00), (0x22, 0x03)] with flags := { c := true, z := false, s := true, p := true } } =
        some (0x300, []) ∧
      flow { machine 0x20 [(0x20, 0x48), (0x21, 0x00), (0x22, 0x03)] with flags := { c := false, z := true, s := false, p := false } } =
        some (0x23, []) := by
  decide

/-- Both outcomes, the selected flip-flop alone deciding (as J5 to J13). -/
theorem test_jtz :
    flow { machine 0x20 [(0x20, 0x68), (0x21, 0x00), (0x22, 0x03)] with flags := { c := false, z := true, s := false, p := false } } =
        some (0x300, []) ∧
      flow { machine 0x20 [(0x20, 0x68), (0x21, 0x00), (0x22, 0x03)] with flags := { c := true, z := false, s := true, p := true } } =
        some (0x23, []) := by
  decide

/-- Both outcomes, the selected flip-flop alone deciding (as J5 to J13). -/
theorem test_cfz :
    flow { machine 0x20 [(0x20, 0x4A), (0x21, 0x00), (0x22, 0x03)] with flags := { c := true, z := false, s := true, p := true } } =
        some (0x300, [0x23]) ∧
      flow { machine 0x20 [(0x20, 0x4A), (0x21, 0x00), (0x22, 0x03)] with flags := { c := false, z := true, s := false, p := false } } =
        some (0x23, []) := by
  decide

/-- Both outcomes, the selected flip-flop alone deciding (as J5 to J13). -/
theorem test_ctz :
    flow { machine 0x20 [(0x20, 0x6A), (0x21, 0x00), (0x22, 0x03)] with flags := { c := false, z := true, s := false, p := false } } =
        some (0x300, [0x23]) ∧
      flow { machine 0x20 [(0x20, 0x6A), (0x21, 0x00), (0x22, 0x03)] with flags := { c := true, z := false, s := true, p := true } } =
        some (0x23, []) := by
  decide

/-- Both outcomes, the selected flip-flop alone deciding (section 2.6). -/
theorem test_rfz :
    flow { machine 0x30 [(0x30, 0x0F)] with stk := twoDeep, flags := { c := true, z := false, s := true, p := true } } =
        some (0x123, [0x5]) ∧
      flow { machine 0x30 [(0x30, 0x0F)] with stk := twoDeep, flags := { c := false, z := true, s := false, p := false } } =
        some (0x31, [0x5, 0x123]) := by
  decide

/-- Both outcomes, the selected flip-flop alone deciding (section 2.6). -/
theorem test_rtz :
    flow { machine 0x30 [(0x30, 0x2F)] with stk := twoDeep, flags := { c := false, z := true, s := false, p := false } } =
        some (0x123, [0x5]) ∧
      flow { machine 0x30 [(0x30, 0x2F)] with stk := twoDeep, flags := { c := true, z := false, s := true, p := true } } =
        some (0x31, [0x5, 0x123]) := by
  decide

/-- Both outcomes, the selected flip-flop alone deciding (as J5 to J13). -/
theorem test_jfs :
    flow { machine 0x20 [(0x20, 0x50), (0x21, 0x00), (0x22, 0x03)] with flags := { c := true, z := true, s := false, p := true } } =
        some (0x300, []) ∧
      flow { machine 0x20 [(0x20, 0x50), (0x21, 0x00), (0x22, 0x03)] with flags := { c := false, z := false, s := true, p := false } } =
        some (0x23, []) := by
  decide

/-- Both outcomes, the selected flip-flop alone deciding (as J5 to J13). -/
theorem test_jts :
    flow { machine 0x20 [(0x20, 0x70), (0x21, 0x00), (0x22, 0x03)] with flags := { c := false, z := false, s := true, p := false } } =
        some (0x300, []) ∧
      flow { machine 0x20 [(0x20, 0x70), (0x21, 0x00), (0x22, 0x03)] with flags := { c := true, z := true, s := false, p := true } } =
        some (0x23, []) := by
  decide

/-- Both outcomes, the selected flip-flop alone deciding (as J5 to J13). -/
theorem test_cfs :
    flow { machine 0x20 [(0x20, 0x52), (0x21, 0x00), (0x22, 0x03)] with flags := { c := true, z := true, s := false, p := true } } =
        some (0x300, [0x23]) ∧
      flow { machine 0x20 [(0x20, 0x52), (0x21, 0x00), (0x22, 0x03)] with flags := { c := false, z := false, s := true, p := false } } =
        some (0x23, []) := by
  decide

/-- Both outcomes, the selected flip-flop alone deciding (as J5 to J13). -/
theorem test_cts :
    flow { machine 0x20 [(0x20, 0x72), (0x21, 0x00), (0x22, 0x03)] with flags := { c := false, z := false, s := true, p := false } } =
        some (0x300, [0x23]) ∧
      flow { machine 0x20 [(0x20, 0x72), (0x21, 0x00), (0x22, 0x03)] with flags := { c := true, z := true, s := false, p := true } } =
        some (0x23, []) := by
  decide

/-- Both outcomes, the selected flip-flop alone deciding (section 2.6). -/
theorem test_rfs :
    flow { machine 0x30 [(0x30, 0x17)] with stk := twoDeep, flags := { c := true, z := true, s := false, p := true } } =
        some (0x123, [0x5]) ∧
      flow { machine 0x30 [(0x30, 0x17)] with stk := twoDeep, flags := { c := false, z := false, s := true, p := false } } =
        some (0x31, [0x5, 0x123]) := by
  decide

/-- Both outcomes, the selected flip-flop alone deciding (section 2.6). -/
theorem test_rts :
    flow { machine 0x30 [(0x30, 0x37)] with stk := twoDeep, flags := { c := false, z := false, s := true, p := false } } =
        some (0x123, [0x5]) ∧
      flow { machine 0x30 [(0x30, 0x37)] with stk := twoDeep, flags := { c := true, z := true, s := false, p := true } } =
        some (0x31, [0x5, 0x123]) := by
  decide

/-- Both outcomes, the selected flip-flop alone deciding (as J5 to J13). -/
theorem test_jfp :
    flow { machine 0x20 [(0x20, 0x58), (0x21, 0x00), (0x22, 0x03)] with flags := { c := true, z := true, s := true, p := false } } =
        some (0x300, []) ∧
      flow { machine 0x20 [(0x20, 0x58), (0x21, 0x00), (0x22, 0x03)] with flags := { c := false, z := false, s := false, p := true } } =
        some (0x23, []) := by
  decide

/-- Both outcomes, the selected flip-flop alone deciding (as J5 to J13). -/
theorem test_jtp :
    flow { machine 0x20 [(0x20, 0x78), (0x21, 0x00), (0x22, 0x03)] with flags := { c := false, z := false, s := false, p := true } } =
        some (0x300, []) ∧
      flow { machine 0x20 [(0x20, 0x78), (0x21, 0x00), (0x22, 0x03)] with flags := { c := true, z := true, s := true, p := false } } =
        some (0x23, []) := by
  decide

/-- Both outcomes, the selected flip-flop alone deciding (as J5 to J13). -/
theorem test_cfp :
    flow { machine 0x20 [(0x20, 0x5A), (0x21, 0x00), (0x22, 0x03)] with flags := { c := true, z := true, s := true, p := false } } =
        some (0x300, [0x23]) ∧
      flow { machine 0x20 [(0x20, 0x5A), (0x21, 0x00), (0x22, 0x03)] with flags := { c := false, z := false, s := false, p := true } } =
        some (0x23, []) := by
  decide

/-- Both outcomes, the selected flip-flop alone deciding (as J5 to J13). -/
theorem test_ctp :
    flow { machine 0x20 [(0x20, 0x7A), (0x21, 0x00), (0x22, 0x03)] with flags := { c := false, z := false, s := false, p := true } } =
        some (0x300, [0x23]) ∧
      flow { machine 0x20 [(0x20, 0x7A), (0x21, 0x00), (0x22, 0x03)] with flags := { c := true, z := true, s := true, p := false } } =
        some (0x23, []) := by
  decide

/-- Both outcomes, the selected flip-flop alone deciding (section 2.6). -/
theorem test_rfp :
    flow { machine 0x30 [(0x30, 0x1F)] with stk := twoDeep, flags := { c := true, z := true, s := true, p := false } } =
        some (0x123, [0x5]) ∧
      flow { machine 0x30 [(0x30, 0x1F)] with stk := twoDeep, flags := { c := false, z := false, s := false, p := true } } =
        some (0x31, [0x5, 0x123]) := by
  decide

/-- Both outcomes, the selected flip-flop alone deciding (section 2.6). -/
theorem test_rtp :
    flow { machine 0x30 [(0x30, 0x3F)] with stk := twoDeep, flags := { c := false, z := false, s := false, p := true } } =
        some (0x123, [0x5]) ∧
      flow { machine 0x30 [(0x30, 0x3F)] with stk := twoDeep, flags := { c := true, z := true, s := true, p := false } } =
        some (0x31, [0x5, 0x123]) := by
  decide

/-- RFC with an empty stack (section 2.6). -/
theorem test_rfc_underflow : faultOf (machine 0x30 [(0x30, 0x07)]) = some (.stackUnderflow 0x30) := by decide

theorem test_halt :
    (after (machine 0x0E [(0x0E, 0x01)])).map (fun t => (t.run, t.pc)) = some (.stopped, 0x0F) := by
  decide

theorem test_halt_ff :
    (after (machine 0x3FFF [(0x3FFF, 0xFF)])).map (fun t => (t.run, t.pc)) = some (.stopped, 0) := by
  decide

/-- RESTART under the parameters of section 2.7. -/
theorem test_rst :
    flow { machine 0x40 [(0x40, 0x1D)] with params := { hasRestart := true, rstPush := some false } } =
        some (0x0C, []) ∧
      flow { machine 0x40 [(0x40, 0x3D)] with params := { hasRestart := true, rstPush := some true } } =
        some (0x1C, [0x41]) := by
  decide

theorem test_rst_default : refusalOf (machine 0 [(0, 0x1D)]) = some (.restartAbsent 0x1D) := by decide

/-! ### I/O -/

theorem test_inp :
    (after { machine 0 [(0, 0x47)] with ioAnswers := [0x81] }).map (fun t => (t.regs.a, t.bus)) =
      some (0x81, [.pcc 0b00011 0x00 (some 0x81), .pci 0 0x47 false]) := by
  decide

theorem test_io :
    (after (machineA 0 [(0, 0x57)] 0x03 false)).map (fun t => (t.regs.a, t.bus)) =
      some (0x03, [.pcc 0b01011 0x03 none, .pci 0 0x57 false]) := by
  decide

/-! ### Model outcomes (section 2.9) -/

theorem test_unassigned :
    refusalOf (machine 0 [(0, 0x08)]) = some (.unassigned 0x08 0) ∧
      refusalOf (machine 0 [(0, 0x11)]) = some (.unassigned 0x11 0) ∧
      refusalOf (machine 0 [(0, 0x12)]) = some (.unassigned 0x12 0) ∧
      refusalOf (machine 0 [(0, 0x3B)]) = some (.unassigned 0x3B 0) := by
  decide

theorem test_unimplemented_fetch :
    faultOf { machine 0x1000 [] with params := { memSize := 4096 } } = some (.unimplemented 0x1000) := by
  decide

/-! ### The interrupt fetch (section 2.10) -/

/-- I1. -/
theorem test_insert_noop :
    (after { machineA 0x40 [] 0x01 false with intMoves := [some ⟨some 0xC0, none, none⟩] }).map
      (fun t => (t.regs.a, t.pc, t.run)) = some (0x01, 0x40, .running) := by
  decide

/-- I5 and I6. -/
theorem test_insert_call :
    flow { machine 0x40 [] with intMoves := [some ⟨some 0x46, some 0x20, some 0x00⟩] } = some (0x20, [0x42]) ∧
      flow { machine 0x40 [] with
        intMoves := [some ⟨some 0x46, some 0x20, some 0x00⟩]
        params := { intOperandAdvance := false } } = some (0x20, [0x40]) := by
  decide

/-- R262: a default launch whose environment inserts JMP 0123 and withdraws INT, and the launch of vector I4's
insertion; the first step is the interrupt fetch. -/
theorem test_launch_entry :
    (after (State.launch {} 0x40 [] (entryMoves true 0x123) [])).map (fun t => (t.run, t.pc, t.noRequest)) =
        some (.running, 0x123, true) ∧
      (after (State.launch {} 0x40 [] [some ⟨some 0x44, some 0x00, some 0x00⟩] [])).map (fun t => (t.run, t.pc)) =
        some (.running, 0) := by
  decide

/-- The bytes R262 names: 0x44, the low byte of the entry, its high six bits. -/
theorem test_entry_bytes : entryMoves true 0x3A5C = [some ⟨some 0x44, some 0x5C, some 0x3A⟩] := by decide

/-- I9. -/
theorem test_stopped_idles : after State.reset = some State.reset := by decide

/-- The transfers of a step: vector M4's read, with the fetch before it. -/
theorem test_transfers :
    (after (let s := machine 0 [(0, 0xD7), (0x120, 0x7E)]
            { s with regs := { s.regs with h := 0x01, l := 0x20 } })).map (·.transfers) =
      some [⟨.synch, 0x00, true⟩, ⟨.other, 0x00, true⟩, ⟨.other, 0xD7, false⟩,
        ⟨.synch, 0x81, true⟩, ⟨.other, 0x20, true⟩, ⟨.other, 0x7E, false⟩] := by
  decide

/-- The host's hook: the very next step from reset runs the word. -/
theorem test_with_fetch_word :
    (after (State.reset.withFetchWord 16 0x2A2E)).map (fun t => (t.regs.h, t.pc)) = some (0x2A, 2) ∧
      flow (State.reset.withFetchWord 24 0x012344) = some (0x123, []) := by
  decide

/-! ### Witnesses: the hypotheses of each statement, met by a concrete state and operands -/

/-- A small RUNNING machine: bytes at 0, an M operand at 0120, and H L naming it. -/
def small : State :=
  let s := machine 0 [(0, 0x46), (1, 0x34), (2, 0x12), (0x120, 0x7E)]
  { s with regs := { s.regs with h := 0x01, l := 0x20 } }

/-- The same with one byte of memory implemented and M outside it. -/
def tiny : State := { small with params := { memSize := 1 } }

/-- The same with all seven words outstanding. -/
def fullStack : State := { small with stk := full }

theorem test_witness_DecodeEncodeRoundTrip :
    (Instr.io 3 7).wf = true ∧ (Instr.jmp 0x3FFF).wf = true ∧ (Instr.unassigned2 2).wf = true := by
  decide

theorem test_witness_DecodedInstructionsAreWellFormed :
    decode true (0x44 :: [0x23, 0x01]) = .ok (.jmp 0x0123, []) ∧ lengthOf 0x44 ≤ [0x23, 0x01].length + 1 ∧
      [0x23].length + 1 < lengthOf (0x44 : Byte) :=
  ⟨rfl, by decide, by decide⟩

theorem test_witness_DecoderIgnoresDontCareBits :
    (0x3F : Byte).extractLsb' 0 6 = (0xFF : Byte).extractLsb' 0 6 ∧ opField 0x7C = 1 := by
  decide

theorem test_witness_DecoderTakesTheMostSpecificRow :
    ∃ other, opcodeRows[62]? = some other ∧ 62 ≠ rowOf (instrOf true 0x00 0 0) ∧ other.matches 0x00 = true :=
  ⟨_, rfl, by decide, by decide⟩

theorem test_witness_FirstByteMap : (1 : BitVec 2) ≠ 0 ∧ (1 : BitVec 3) ≠ 0 ∧ 2 ≤ (2 : BitVec 3).toNat := by decide

/-- Each clause: a byte there, the last address unwritten, an address just past memory; the same at `pc`, one
byte before the wrap. -/
theorem test_witness_MemoryPrimitives :
    ((0x120 : Addr).toNat < small.params.memSize ∧ small.mem.byteAt (0x120 : Addr).toNat = some 0x7E) ∧
      ((0x3FFF : Addr).toNat < small.params.memSize ∧ small.mem.byteAt (0x3FFF : Addr).toNat = none) ∧
      tiny.params.memSize ≤ (1 : Addr).toNat ∧
      ((machine 0x3FFF [(0x3FFF, 0xC0)]).pc.toNat < (machine 0x3FFF [(0x3FFF, 0xC0)]).params.memSize ∧
        (machine 0x3FFF [(0x3FFF, 0xC0)]).mem.byteAt 0x3FFF = some 0xC0) ∧
      ((machine 0x3FFF []).pc.toNat < (machine 0x3FFF []).params.memSize ∧
        (machine 0x3FFF []).mem.byteAt 0x3FFF = none) ∧
      { tiny with pc := 1 }.params.memSize ≤ { tiny with pc := 1 }.pc.toNat := by
  decide

theorem test_witness_StepRunsTheFetchedInstruction :
    small.run = .running ∧ small.noRequest = true ∧ small.holds small.pc (0x46 :: [0x34, 0x12]) ∧
      decode small.params.addrLowFirst (0x46 :: [0x34, 0x12]) = .ok (.call 0x1234, []) :=
  ⟨rfl, rfl, ⟨rfl, rfl, rfl, trivial⟩, rfl⟩

/-- Three bytes driven; a one-byte instruction with nothing offered beyond it; an undriven first byte and an
undriven second byte that memory answers; and each needed byte in turn missing. -/
theorem test_witness_StepInsertsAnInstruction :
    (small.supplied 0 (some 0x46) = .ok 0x46 ∧ small.supplies 0 [some 0x20, some 0x00] [0x20, 0x00] ∧
        decode true [0x46, 0x20, 0x00] = .ok (.call 0x20, [])) ∧
      (small.supplies 0 [none, none] [] ∧ decode true [0xC1] = .ok (.moveRR .a .b, [])) ∧
      small.supplied 0 none = .ok 0x46 ∧
      (small.supplies 0 [none, none] [0x46, 0x34] ∧ decode true [0x44, 0x46, 0x34] = .ok (.jmp 0x3446, [])) ∧
      (machine 0 []).supplied 0 none = .error (.unwrittenRead 0) ∧
      2 ≤ lengthOf 0x06 ∧ lengthOf 0x44 = 3 ∧
      (machine 0 []).supplied ((machine 0 []).nextOperand 0) none = .error (.unwrittenRead 1) :=
  ⟨⟨rfl, ⟨rfl, rfl, trivial⟩, rfl⟩, ⟨trivial, rfl⟩, rfl, ⟨⟨rfl, rfl, trivial⟩, rfl⟩, rfl, by decide, by decide, rfl⟩

/-- A one-byte instruction inserted alone, and a two-byte one whose second byte memory answers at pc. -/
theorem test_insert_undriven :
    (after { machine 0x40 [] with intMoves := [some ⟨some 0xC1, none, none⟩] }).map (·.pc) = some 0x40 ∧
      (after { machine 0x40 [(0x40, 0x99)] with intMoves := [some ⟨some 0x06, none, none⟩] }).map
        (fun t => (t.regs.a, t.pc)) = some (0x99, 0x41) := by
  decide

/-- A step that stops the CPU, a step that starts it, and a STOPPED CPU without a request. -/
theorem test_witness_RunConditionChanges :
    (∃ t, step (machine 0 [(0, 0x00)]) = .next t ∧ (machine 0 [(0, 0x00)]).run = .running ∧ t.run = .stopped ∧
        (machine 0 [(0, 0x00)]).noRequest = true) ∧
      (∃ t, step { State.reset with intMoves := [some ⟨some 0xC0, none, none⟩] } = .next t ∧
        { State.reset with intMoves := [some ⟨some 0xC0, none, none⟩] }.run = .stopped ∧ t.run = .running) ∧
      State.reset.run = .stopped ∧ State.reset.noRequest = true :=
  ⟨⟨_, rfl, rfl, rfl, rfl⟩, ⟨_, rfl, rfl, rfl⟩, rfl, rfl⟩

theorem test_witness_InsertedHaltStops :
    ((0xFF : Byte) = 0x00 ∨ (0xFF : Byte) = 0x01 ∨ (0xFF : Byte) = 0xFF) ∧
      { small with intMoves := [some ⟨some 0xFF, none, none⟩] }.intMoves = some ⟨some 0xFF, none, none⟩ :: [] :=
  ⟨by decide, rfl⟩

theorem test_witness_NamedInsertions :
    { small with intMoves := [some ⟨some 0xF6, none, none⟩] }.intMoves =
        some ⟨some (firstByte 3 Reg.l.code Reg.l.code), none, none⟩ :: [] ∧
      { small with intMoves := [some ⟨some 0x44, some 0x00, some 0x00⟩] }.intMoves =
        some ⟨some 0x44, some 0x00, some 0x00⟩ :: [] := by
  decide

theorem test_witness_InsertedCallStacksTwoPast :
    { small with intMoves := [some ⟨some 0x46, some 0x20, some 0x00⟩] }.intMoves =
        some ⟨some 0x46, some 0x20, some 0x00⟩ :: [] ∧
      { small with intMoves := [some ⟨some 0x46, some 0x20, some 0x00⟩] }.canPush := by
  decide

/-- Every clause: a jump, one PCI cycle, insertions of one and of three bytes, and a fetch from memory. -/
theorem test_witness_ProgramCounterWriters :
    (∃ t, exec (.jmp 0x123) small = .next t ∧ t.pc ≠ small.pc) ∧
      (∃ t, fetchByte (some 0xC0) false true small = .ok (0xC0, t)) ∧
      (∃ u, nextInstr { small with intMoves := [some ⟨some 0xC0, none, none⟩] } = .instr (.moveRR .a .a) u) ∧
      (∃ u, nextInstr { small with intMoves := [some ⟨some 0x46, some 0x20, some 0x00⟩] } = .instr (.call 0x20) u) ∧
      small.noRequest = true ∧ ∃ u, nextInstr small = .instr (.call 0x1234) u :=
  ⟨⟨_, rfl, by decide⟩, ⟨_, rfl⟩, ⟨_, rfl⟩, ⟨_, rfl⟩, rfl, _, rfl⟩

/-- A store, one cell below the end of memory, keeps the invariant's hypotheses meetable. -/
theorem test_witness_StepKeepsMemoryInvariant :
    State.memoryInv { machine 0 [(0, 0xF8)] with regs := ⟨1, 0, 0, 0, 0, 0x3F, 0xFF⟩ } ∧
      ∃ t, step { machine 0 [(0, 0xF8)] with regs := ⟨1, 0, 0, 0, 0, 0x3F, 0xFF⟩ } = .next t :=
  ⟨by decide, _, rfl⟩

theorem test_witness_StepKeepsParameters :
    ∃ t, step (machine 0 [(0, 0xC0)]) = .next t ∧ (machine 0 [(0, 0xC0)]).run = .running := ⟨_, rfl, rfl⟩

theorem test_witness_HistoryExplainsMemory :
    (∃ t, Host.Core.run Sys2Proof.core 1 (machine 0 [(0, 0xC0)]) = .next t) ∧
      (machine 0 [(0, 0xC0)]).intMoves.all Option.isNone = true :=
  ⟨⟨_, rfl⟩, rfl⟩

theorem test_witness_RegisterWriters :
    ∃ t, exec (.moveRM .l) small = .next t ∧ writesReg (.moveRM .l) ≠ some .h := ⟨_, rfl, by decide⟩

/-- Both clauses: a shift, and a move. -/
theorem test_witness_FlipFlopWriters :
    (∃ t, exec .shl small = .next t ∧ writesFlags .shl ≠ .allFour) ∧
      ∃ t, exec (.moveRM .c) small = .next t ∧ writesFlags (.moveRM .c) = .nothing :=
  ⟨⟨_, rfl, by decide⟩, _, rfl, rfl⟩

/-- A store at M and an address beside it, and a form that stores nothing. -/
theorem test_witness_MemoryWriters :
    (∃ t, exec (.moveMR .a) small = .next t ∧ storesTo (.moveMR .a) small ≠ some 0x121) ∧
      (∃ t, exec (.moviM 0x3C) small = .next t) ∧
      ∃ t, exec (.cpM) small = .next t ∧ storesTo .cpM small ≠ some 0x120 :=
  ⟨⟨_, rfl, by decide⟩, ⟨_, rfl⟩, _, rfl, by decide⟩

theorem test_witness_StackIsPrivateToCallsAndReturns :
    mayPush .adM = false ∧ isReturn .adM = false ∧ ∃ t, exec .adM small = .next t := ⟨rfl, rfl, _, rfl⟩

theorem test_witness_OtherStateFrame :
    ∃ t, exec (.moveMR .a) small = .next t ∧ Instr.moveMR .a ≠ .halt ∧ Instr.moveMR .a ≠ .haltFF ∧
      isIo (.moveMR .a) = false := ⟨_, rfl, by decide, by decide, rfl⟩

/-- Every clause: an I/O instruction, another one, and both kinds of byte with OP = 01. -/
theorem test_witness_IoSeparation :
    (∃ t, exec (.io 1 3) small = .next t ∧ isIo (.io 1 3) = true) ∧
      (∃ t, exec (.moveRM .c) small = .next t ∧ isIo (.moveRM .c) = false) ∧
      (opField 0x41 = 1 ∧ (0x41 : Byte).getLsbD 0 = true) ∧ opField 0x40 = 1 ∧ (0x40 : Byte).getLsbD 0 = false :=
  ⟨⟨_, rfl, rfl⟩, ⟨_, rfl, rfl⟩, by decide, by decide⟩

theorem test_witness_MoveRegisterToRegister : Reg.b ≠ Reg.a := by decide

/-- M readable, and M not implemented. -/
theorem test_witness_MoveMemoryToRegister :
    readByte small (maddr small) = .ok 0x7E ∧ readByte tiny (maddr tiny) = .error (.unimplemented 0x120) ∧
      Reg.b ≠ Reg.a :=
  ⟨rfl, rfl, by decide⟩

theorem test_witness_MoveRegisterToMemory :
    (maddr small).toNat < small.params.memSize ∧ tiny.params.memSize ≤ (maddr tiny).toNat := by decide

theorem test_witness_MoveImmediateToRegister :
    (machine 0x3FFF [(0, 0x55), (0x3FFF, 0x06)]).run = .running ∧
      (machine 0x3FFF [(0, 0x55), (0x3FFF, 0x06)]).noRequest = true ∧
      (machine 0x3FFF [(0, 0x55), (0x3FFF, 0x06)]).holds 0x3FFF [firstByte 0 Reg.a.code 6, 0x55] :=
  ⟨rfl, rfl, rfl, rfl, trivial⟩

theorem test_witness_MoveImmediateToMemory :
    ((maddr small).toNat < small.params.memSize ∧ small.mem.byteAt (maddr small).toNat = some 0x7E) ∧
      tiny.params.memSize ≤ (maddr tiny).toNat := by
  decide

/-- The memory form of AD: M readable, and M unwritten. -/
theorem test_witness_AddForms :
    readByte small (maddr small) = .ok 0x7E ∧
      readByte (machine 0 []) (maddr (machine 0 [])) = .error (.unwrittenRead 0) := ⟨rfl, rfl⟩

/-- The memory form of AC: M readable at 0, and M unwritten. -/
theorem test_witness_AddWithCarryForms :
    readByte (machine 0 [(0, 0x8F)]) (maddr (machine 0 [(0, 0x8F)])) = .ok 0x8F ∧
      readByte (machine 0 []) (maddr (machine 0 [])) = .error (.unwrittenRead 0) := ⟨rfl, rfl⟩

/-- The memory form of SU: M readable, and M just past memory. -/
theorem test_witness_SubtractForms :
    readByte small (maddr small) = .ok 0x7E ∧ readByte tiny (maddr tiny) = .error (.unimplemented 0x120) := ⟨rfl, rfl⟩

/-- The memory form of SB. -/
theorem test_witness_SubtractWithCarryForms :
    readByte small (maddr small) = .ok 0x7E ∧ readByte tiny (maddr tiny) = .error (.unimplemented 0x120) := ⟨rfl, rfl⟩

/-- The memory form of ND. -/
theorem test_witness_AndForms :
    readByte small (maddr small) = .ok 0x7E ∧ readByte tiny (maddr tiny) = .error (.unimplemented 0x120) := ⟨rfl, rfl⟩

/-- The memory form of XR. -/
theorem test_witness_ExclusiveOrForms :
    readByte small (maddr small) = .ok 0x7E ∧ readByte tiny (maddr tiny) = .error (.unimplemented 0x120) := ⟨rfl, rfl⟩

/-- The memory form of OR. -/
theorem test_witness_InclusiveOrForms :
    readByte small (maddr small) = .ok 0x7E ∧ readByte tiny (maddr tiny) = .error (.unimplemented 0x120) := ⟨rfl, rfl⟩

/-- The memory form of CP. -/
theorem test_witness_CompareForms :
    readByte small (maddr small) = .ok 0x7E ∧ readByte tiny (maddr tiny) = .error (.unimplemented 0x120) := ⟨rfl, rfl⟩

/-- Both kinds of shift. -/
theorem test_witness_ShiftForms :
    small.params.shiftKind = .circular ∧ { small with params := { shiftKind := .other } }.params.shiftKind = .other := by
  decide

theorem test_witness_ShiftsUndoEachOther : small.params.shiftKind = .circular := by decide

/-- CALL: a push that is possible at depth 6, one that is not at depth 7, and a CALL in memory. -/
theorem test_witness_CallStacksTheReturnAddress :
    { small with stk := { full with sp := 6 } }.canPush ∧ ¬ fullStack.canPush ∧
      (small.run = .running ∧ small.noRequest = true ∧ small.stk.sp.val < 7) ∧
      small.holds small.pc [0x46, 0x34, 0x12] :=
  ⟨by decide, by decide, by decide, rfl, rfl, rfl, trivial⟩

/-- A JFC in memory. -/
theorem test_witness_JumpIfFalse :
    (machine 0 [(0, 0x40), (1, 4), (2, 0)]).run = .running ∧ (machine 0 [(0, 0x40), (1, 4), (2, 0)]).noRequest = true ∧
      (machine 0 [(0, 0x40), (1, 4), (2, 0)]).holds 0 [0x40, 4, 0] ∧
      (machine 0 [(0, 0x48), (1, 4), (2, 0)]).holds 0 [0x48, 4, 0] ∧
      (machine 0 [(0, 0x50), (1, 4), (2, 0)]).holds 0 [0x50, 4, 0] ∧
      (machine 0 [(0, 0x58), (1, 4), (2, 0)]).holds 0 [0x58, 4, 0] :=
  ⟨rfl, rfl, ⟨rfl, rfl, rfl, trivial⟩, ⟨rfl, rfl, rfl, trivial⟩, ⟨rfl, rfl, rfl, trivial⟩, rfl, rfl, rfl, trivial⟩

/-- A JTC in memory. -/
theorem test_witness_JumpIfTrue :
    (machine 0 [(0, 0x60), (1, 4), (2, 0)]).run = .running ∧ (machine 0 [(0, 0x60), (1, 4), (2, 0)]).noRequest = true ∧
      (machine 0 [(0, 0x60), (1, 4), (2, 0)]).holds 0 [0x60, 4, 0] ∧
      (machine 0 [(0, 0x68), (1, 4), (2, 0)]).holds 0 [0x68, 4, 0] ∧
      (machine 0 [(0, 0x70), (1, 4), (2, 0)]).holds 0 [0x70, 4, 0] ∧
      (machine 0 [(0, 0x78), (1, 4), (2, 0)]).holds 0 [0x78, 4, 0] :=
  ⟨rfl, rfl, ⟨rfl, rfl, rfl, trivial⟩, ⟨rfl, rfl, rfl, trivial⟩, ⟨rfl, rfl, rfl, trivial⟩, rfl, rfl, rfl, trivial⟩

/-- For each CFc: it executes with a free word, it executes with none, it does not execute. -/
theorem test_witness_CallIfFalse :
    small.flags = ⟨false, false, false, false⟩ ∧ small.canPush ∧
      fullStack.flags = ⟨false, false, false, false⟩ ∧ ¬ fullStack.canPush ∧
      { small with flags := ⟨true, true, true, true⟩ }.flags = ⟨true, true, true, true⟩ := by
  decide

/-- For each CTc: it executes with a free word, it executes with none, it does not execute. -/
theorem test_witness_CallIfTrue :
    { small with flags := ⟨true, true, true, true⟩ }.flags = ⟨true, true, true, true⟩ ∧
      { small with flags := ⟨true, true, true, true⟩ }.canPush ∧
      { fullStack with flags := ⟨true, true, true, true⟩ }.flags = ⟨true, true, true, true⟩ ∧
      ¬ { fullStack with flags := ⟨true, true, true, true⟩ }.canPush ∧
      small.flags = ⟨false, false, false, false⟩ := by
  decide

/-- For each RFc: it executes with an address outstanding, it executes with none, it does not execute. -/
theorem test_witness_ReturnIfFalse :
    fullStack.flags = ⟨false, false, false, false⟩ ∧ fullStack.canPop ∧
      small.flags = ⟨false, false, false, false⟩ ∧ ¬ small.canPop ∧
      { small with flags := ⟨true, true, true, true⟩ }.flags = ⟨true, true, true, true⟩ := by
  decide

/-- For each RTc: it executes with an address outstanding, it executes with none, it does not execute. -/
theorem test_witness_ReturnIfTrue :
    { fullStack with flags := ⟨true, true, true, true⟩ }.flags = ⟨true, true, true, true⟩ ∧
      { fullStack with flags := ⟨true, true, true, true⟩ }.canPop ∧
      { small with flags := ⟨true, true, true, true⟩ }.flags = ⟨true, true, true, true⟩ ∧
      ¬ { small with flags := ⟨true, true, true, true⟩ }.canPop ∧
      small.flags = ⟨false, false, false, false⟩ := by
  decide

/-- Depths 6, 7, 1 and 0, one for each clause. -/
theorem test_witness_StackIsLastInFirstOut :
    { full with sp := 6 }.sp.val < 7 ∧ full.sp.val = 7 ∧ 0 < { full with sp := 1 }.sp.val ∧
      { full with sp := 0 }.sp.val = 0 := by
  decide

theorem test_witness_CallThenReturn :
    { small with stk := { full with sp := 6 } }.stk.sp.val < 7 ∧ isReturn .rfp = true ∧
      writesPc .rfp { small with stk := { full with sp := 6 } } = true := by
  decide

theorem test_witness_HaltFirstCoding :
    ((0x01 : Byte) = 0x00 ∨ (0x01 : Byte) = 0x01) ∧ (machine 0x3FFF [(0x3FFF, 0x01)]).run = .running ∧
      (machine 0x3FFF [(0x3FFF, 0x01)]).noRequest = true ∧
      readByte (machine 0x3FFF [(0x3FFF, 0x01)]) 0x3FFF = .ok 0x01 := ⟨.inr rfl, rfl, rfl, rfl⟩

theorem test_witness_HaltSecondCoding :
    (machine 0x3FFF [(0x3FFF, 0xFF)]).run = .running ∧ (machine 0x3FFF [(0x3FFF, 0xFF)]).noRequest = true ∧
      readByte (machine 0x3FFF [(0x3FFF, 0xFF)]) 0x3FFF = .ok 0xFF := ⟨rfl, rfl, rfl⟩

/-- Each clause: a jump, a push with room, a push without, RST_PUSH open, no RESTART. -/
theorem test_witness_RestartForms :
    ({ hasRestart := true, rstPush := some false } : Params).hasRestart = true ∧
      { small with params := { hasRestart := true, rstPush := some true } }.canPush ∧
      ¬ { fullStack with params := { hasRestart := true, rstPush := some true } }.canPush ∧
      ({ hasRestart := true } : Params).rstPush = none ∧ small.params.hasRestart = false := by
  decide

/-- Both clauses: an answer held in State, and none. -/
theorem test_witness_InputLoadsAccumulator :
    { small with ioAnswers := [0x81] }.ioAnswers = 0x81 :: [] ∧ small.ioAnswers = [] := by
  decide

theorem test_witness_OutputCommand : (1 : BitVec 2) ≠ 0 := by decide


end Sys2Proof.Tests
end

section
/-! PROOFS. The opcode map (30_encoding.md R100): what each first byte decodes to. With three bytes there the
decoder never runs short, so it answers the entry at columns A and B of the table that column OP selects. -/

namespace Sys2Proof.Proofs.OpcodeMap

open Sys2Proof.Machine

/-! ### The columns of a first byte, and the register codes -/

/-- The bits of a first byte, column by column (R90). -/
theorem getLsbD_firstByte (op : BitVec 2) (a b : BitVec 3) (i : Nat) :
    (firstByte op a b).getLsbD i =
      if i < 3 then b.getLsbD i else if i - 3 < 3 then a.getLsbD (i - 3) else op.getLsbD (i - 3 - 3) :=
  BitVec.getLsbD_append.trans (by rw [BitVec.getLsbD_append])

@[simp] theorem opField_firstByte (op : BitVec 2) (a b : BitVec 3) : opField (firstByte op a b) = op := by
  apply BitVec.eq_of_getLsbD_eq
  intro i hi
  simp [opField, getLsbD_firstByte, hi, show ¬ 6 + i < 3 by omega, show ¬ 6 + i - 3 < 3 by omega,
    show 6 + i - 3 - 3 = i by omega]

@[simp] theorem aField_firstByte (op : BitVec 2) (a b : BitVec 3) : aField (firstByte op a b) = a := by
  apply BitVec.eq_of_getLsbD_eq
  intro i hi
  simp [aField, getLsbD_firstByte, hi]

@[simp] theorem bField_firstByte (op : BitVec 2) (a b : BitVec 3) : bField (firstByte op a b) = b := by
  apply BitVec.eq_of_getLsbD_eq
  intro i hi
  simp [bField, getLsbD_firstByte, hi]

@[simp] theorem regOfCode_code (r : Reg) : regOfCode r.code = some r := by
  cases r <;> rfl

@[simp] theorem regOfCode_memCode : regOfCode memCode = none := rfl

/-! ### What the decoder reads, by the length of the instruction -/

section
variable {lowFirst : Bool} {b1 b2 b3 : Byte}

theorem firstInstr_of_lengthOf_one (h : lengthOf b1 = 1) :
    firstInstr lowFirst [b1, b2, b3] = some (instrOf lowFirst b1 0 0) := by
  simp [firstInstr, decode, h]

theorem firstInstr_of_lengthOf_two (h : lengthOf b1 = 2) :
    firstInstr lowFirst [b1, b2, b3] = some (instrOf lowFirst b1 b2 0) := by
  simp [firstInstr, decode, h]

theorem firstInstr_of_lengthOf_three (h : lengthOf b1 = 3) :
    firstInstr lowFirst [b1, b2, b3] = some (instrOf lowFirst b1 b2 b3) := by
  simp [firstInstr, decode, h]

end

/-! ### The four tables, one for each OP -/

/-- The rows of OP = 00 other than B = 4 and B = 6 do not look at byte 2. -/
theorem decodeOp00_of_one_byte (a : BitVec 3) {b : BitVec 3} (hb : ¬ (b = 4 ∨ b = 6)) (n : Byte) :
    decodeOp00 a b 0 = decodeOp00 a b n := by
  have rows : ∀ b : BitVec 3, ¬ (b = 4 ∨ b = 6) → b = 0 ∨ b = 1 ∨ b = 2 ∨ b = 3 ∨ b = 5 ∨ b = 7 := by decide
  rcases rows b hb with rfl | rfl | rfl | rfl | rfl | rfl <;> rfl

/-- A first byte with OP = 01 and bit 0 clear starts a jump. -/
theorem lengthOf_jump : ∀ (icc : BitVec 3) (x y : Bool),
    lengthOf (firstByte 1 icc (BitVec.ofBool x ++ BitVec.ofBool y ++ 0#1)) = 3 := by
  decide

/-- The first byte of I/O CONTROL (R99). -/
def ioByte (rr : BitVec 2) (mmm : BitVec 3) : Byte := (1 : BitVec 2) ++ rr ++ mmm ++ (1 : BitVec 1)

/-- I/O CONTROL is one byte long, and its fields RR and MMM are where `instrOf` reads them (R99). -/
theorem ioByte_fields : ∀ (rr : BitVec 2) (mmm : BitVec 3),
    lengthOf (ioByte rr mmm) = 1 ∧ opField (ioByte rr mmm) = 1 ∧ (ioByte rr mmm).getLsbD 0 = true ∧
      (ioByte rr mmm).extractLsb' 4 2 = rr ∧ (ioByte rr mmm).extractLsb' 1 3 = mmm := by
  decide

section
variable (lowFirst : Bool) (b2 b3 : Byte)

theorem firstInstr_op00 (a b : BitVec 3) :
    firstInstr lowFirst [firstByte 0 a b, b2, b3] = some (decodeOp00 a b b2) := by
  by_cases hb : b = 4 ∨ b = 6
  · rw [firstInstr_of_lengthOf_two (by rw [Laws.lengthOf_low, if_pos hb])]
    simp [instrOf]
  · rw [firstInstr_of_lengthOf_one (by rw [Laws.lengthOf_low, if_neg hb]), ← decodeOp00_of_one_byte a hb]
    simp [instrOf]

theorem firstInstr_jump (icc : BitVec 3) (x y : Bool) :
    firstInstr lowFirst [firstByte 1 icc (BitVec.ofBool x ++ BitVec.ofBool y ++ 0#1), b2, b3] =
      some (decodeJump icc x y (targetOf lowFirst b2 b3)) := by
  rw [firstInstr_of_lengthOf_three (lengthOf_jump icc x y)]
  simp only [instrOf, getLsbD_firstByte, opField_firstByte, aField_firstByte]
  cases x <;> cases y <;> rfl

theorem firstInstr_io (rr : BitVec 2) (mmm : BitVec 3) :
    firstInstr lowFirst [ioByte rr mmm, b2, b3] = some (decodeIo rr mmm) := by
  obtain ⟨hlen, hop, h0, hrr, hmmm⟩ := ioByte_fields rr mmm
  rw [firstInstr_of_lengthOf_one hlen]
  simp only [instrOf, hop, h0, hrr, hmmm]
  rfl

theorem firstInstr_op10 (ppp sss : BitVec 3) :
    firstInstr lowFirst [firstByte 2 ppp sss, b2, b3] = some (decodeOp10 ppp sss) := by
  rw [firstInstr_of_lengthOf_one (Laws.lengthOf_high ppp sss).2]
  simp [instrOf]

theorem firstInstr_op11 (ddd sss : BitVec 3) :
    firstInstr lowFirst [firstByte 3 ddd sss, b2, b3] = some (decodeOp11 ddd sss) := by
  rw [firstInstr_of_lengthOf_one (Laws.lengthOf_high ddd sss).1]
  simp [instrOf]

end

/-! ### The entries of the tables that a register or a free field names -/

/-- OP = 10 with a register as the source: PPP names the operation (R94). -/
theorem decodeOp10_code (src : Reg) :
    decodeOp10 0 src.code = .adS src ∧ decodeOp10 1 src.code = .acS src ∧ decodeOp10 2 src.code = .suS src ∧
      decodeOp10 3 src.code = .sbS src ∧ decodeOp10 4 src.code = .ndS src ∧ decodeOp10 5 src.code = .xrS src ∧
      decodeOp10 6 src.code = .orS src ∧ decodeOp10 7 src.code = .cpS src := by
  simp [decodeOp10]

theorem decodeOp11_moveRR (dst src : Reg) : decodeOp11 dst.code src.code = .moveRR dst src := by
  simp [decodeOp11]

theorem decodeOp11_moveRM (dst : Reg) : decodeOp11 dst.code memCode = .moveRM dst := by
  simp [decodeOp11]

theorem decodeOp11_moveMR (src : Reg) : decodeOp11 memCode src.code = .moveMR src := by
  simp [decodeOp11]

theorem decodeOp00_moviR (dst : Reg) (n : Byte) : decodeOp00 dst.code 6 n = .moviR dst n := by
  simp [decodeOp00]

theorem decodeOp00_unassigned0 {a : BitVec 3} (ha : a ≠ 0) (n : Byte) : decodeOp00 a 0 n = .unassigned0 a :=
  if_neg ha

theorem decodeOp00_unassigned1 {a : BitVec 3} (ha : a ≠ 0) (n : Byte) : decodeOp00 a 1 n = .unassigned1 a :=
  if_neg ha

/-- In row B = 2 the codes A = 0 and A = 1 are SHL and SHR. -/
theorem decodeOp00_unassigned2 {a : BitVec 3} (ha : 2 ≤ a.toNat) (n : Byte) :
    decodeOp00 a 2 n = .unassigned2 a := by
  have h0 : a ≠ 0 := by rintro rfl; exact absurd ha (by decide)
  have h1 : a ≠ 1 := by rintro rfl; exact absurd ha (by decide)
  exact (if_neg h0).trans (if_neg h1)

theorem decodeIo_io {rr : BitVec 2} (hr : rr ≠ 0) (mmm : BitVec 3) : decodeIo rr mmm = .io rr mmm :=
  if_neg hr

/-! ### First bytes that the map writes as a base and a shifted field -/

theorem jmp_bytes : ∀ icc : BitVec 3, (0x44 + (icc.zeroExtend 8 <<< 3) : Byte) = firstByte 1 icc 4 := by decide

theorem call_bytes : ∀ icc : BitVec 3, (0x46 + (icc.zeroExtend 8 <<< 3) : Byte) = firstByte 1 icc 6 := by decide

theorem rst_bytes : ∀ k : BitVec 3, (0x05 + (k.zeroExtend 8 <<< 3) : Byte) = firstByte 0 k 5 := by decide

theorem inp_bytes : ∀ m : BitVec 3, (0x41 + (m.zeroExtend 8 <<< 1) : Byte) = ioByte 0 m := by decide

theorem io_bytes : ∀ (r : BitVec 2) (m : BitVec 3),
    (0x41 + (r.zeroExtend 8 <<< 4) + (m.zeroExtend 8 <<< 1) : Byte) = ioByte r m := by decide

/-- Settles O5: each clause is the entry at the columns given in the table of its OP. -/
theorem firstByteMap : Obligations.FirstByteMap := by
  intro lowFirst b2 b3
  have op00 := firstInstr_op00 lowFirst b2 b3
  have jump := firstInstr_jump lowFirst b2 b3
  have io := firstInstr_io lowFirst b2 b3
  have op10 := firstInstr_op10 lowFirst b2 b3
  have op11 := firstInstr_op11 lowFirst b2 b3
  exact ⟨
    fun dst src => by rw [op11, decodeOp11_moveRR],
    fun dst => (op11 dst.code memCode).trans (congrArg some (decodeOp11_moveRM dst)),
    fun src => (op11 memCode src.code).trans (congrArg some (decodeOp11_moveMR src)),
    op11 7 7,
    fun src => by simp only [op10, decodeOp10_code], op10 0 7, op00 0 4,
    fun src => by simp only [op10, decodeOp10_code], op10 1 7, op00 1 4,
    fun src => by simp only [op10, decodeOp10_code], op10 2 7, op00 2 4,
    fun src => by simp only [op10, decodeOp10_code], op10 3 7, op00 3 4,
    fun src => by simp only [op10, decodeOp10_code], op10 4 7, op00 4 4,
    fun src => by simp only [op10, decodeOp10_code], op10 5 7, op00 5 4,
    fun src => by simp only [op10, decodeOp10_code], op10 6 7, op00 6 4,
    fun src => by simp only [op10, decodeOp10_code], op10 7 7, op00 7 4,
    fun m => by rw [inp_bytes, io]; rfl,
    fun r m hr => by rw [io_bytes, io, decodeIo_io hr],
    jump 0 false false, jump 4 false false, jump 0 false true, jump 4 false true, op00 0 7, op00 4 7,
    jump 1 false false, jump 5 false false, jump 1 false true, jump 5 false true, op00 1 7, op00 5 7,
    jump 2 false false, jump 6 false false, jump 2 false true, jump 6 false true, op00 2 7, op00 6 7,
    jump 3 false false, jump 7 false false, jump 3 false true, jump 7 false true, op00 3 7, op00 7 7,
    fun icc => by rw [jmp_bytes]; exact jump icc true false,
    fun icc => by rw [call_bytes]; exact jump icc true true,
    op00 0 0, op00 0 1, op00 0 2, op00 1 2,
    fun dst => by rw [op00, decodeOp00_moviR], op00 7 6,
    fun k => by rw [rst_bytes]; exact op00 k 5,
    fun a ha => ⟨by rw [op00, decodeOp00_unassigned0 ha], by rw [op00, decodeOp00_unassigned1 ha]⟩,
    fun a ha => by rw [op00, decodeOp00_unassigned2 ha],
    fun a => op00 a 3⟩

end Sys2Proof.Proofs.OpcodeMap
end

section
/-! PROOFS. A fetch from memory (30_encoding.md R108): where INT is not enabled and memory holds the bytes of an
instruction, the step performs it in the state after the fetch. -/

namespace Sys2Proof.Proofs.MemoryFetch

open Sys2Proof.Machine

section
variable {lowFirst : Bool} {b1 : Byte} {bs : List Byte} {i : Instr} {s : State}

/-- A decode that uses up all the bytes had as many as the first byte asks for (R92). -/
theorem decode_whole_cases (h : decode lowFirst (b1 :: bs) = .ok (i, [])) :
    (lengthOf b1 = 1 ∧ bs = [] ∧ i = instrOf lowFirst b1 0 0) ∨
      (∃ b2, lengthOf b1 = 2 ∧ bs = [b2] ∧ i = instrOf lowFirst b1 b2 0) ∨
      (∃ b2 b3, lengthOf b1 = 3 ∧ bs = [b2, b3] ∧ i = instrOf lowFirst b1 b2 b3) := by
  unfold decode at h
  simp only at h
  split at h
  · cases h
    exact .inl ⟨‹_›, rfl, rfl⟩
  · cases h
    exact .inr (.inl ⟨_, ‹_›, rfl, rfl⟩)
  · cases h
    exact .inr (.inr ⟨_, _, ‹_›, rfl, rfl⟩)
  · cases h

/-- The later bytes of an instruction come from memory at `pc` on (R108). -/
theorem fetchRest_of_holds (at0 : Addr) (hb : s.holds s.pc bs)
    (hd : decode s.params.addrLowFirst (b1 :: bs) = .ok (i, [])) :
    fetchRest b1 at0 none none true s = .instr i { s with
      ir := b1, iaddr := at0, pc := s.pc + BitVec.ofNat 14 bs.length, bus := fetchCycles s.pc bs ++ s.bus } := by
  rcases decode_whole_cases hd with ⟨hl, rfl, rfl⟩ | ⟨b2, hl, rfl, rfl⟩ | ⟨b2, b3, hl, rfl, rfl⟩
  · simp [fetchRest, hl, fetchCycles]
  · obtain ⟨h2, -⟩ := hb
    have f2 := fetchByte_supplied (t := { s with ir := b1, iaddr := at0 }) (d := none) rfl rfl rfl true false h2
    simp only [fetchRest, hl, f2]
    simp [acceptByte, fetchCycles]
  · obtain ⟨h2, h3, -⟩ := hb
    have f2 := fetchByte_supplied (t := { s with ir := b1, iaddr := at0 }) (d := none) rfl rfl rfl true false h2
    have f3 := fetchByte_supplied (t := acceptByte true false b2 { s with ir := b1, iaddr := at0 }) (d := none)
      rfl rfl rfl true false h3
    simp only [fetchRest, hl, f2, f3]
    simp [acceptByte, fetchCycles, BitVec.add_assoc]

/-- Whether bytes can be fetched depends on memory and MEM_SIZE alone (20_memory.md R70, R75). -/
theorem holds_congr {t : State} {a : Addr} (h : s.holds a bs) (hm : t.mem = s.mem) (hp : t.params = s.params) :
    t.holds a bs := by
  induction bs generalizing a with
  | nil => trivial
  | cons b bs ih =>
    obtain ⟨hb, hbs⟩ := h
    exact ⟨(readByte_congr hm hp a).trans hb, ih hbs⟩

/-- A RUNNING CPU to which no request is made fetches from memory, one move used up (60_exceptions.md R232). -/
theorem nextInstr_running (hrun : s.run = .running) (hno : s.noRequest = true) :
    nextInstr s = fetchFromMemory { s with intMoves := s.intMoves.tail } := by
  have hnone : s.intMoves.headD none = none := Option.isNone_iff_eq_none.mp (noRequest_eq s ▸ hno)
  simp only [nextInstr, sampleInt_eq, hnone, hrun]

/-- The bytes of an instruction come from memory at `pc` on, the first by the cycle that sets the instruction
register (R108). -/
theorem fetchFromMemory_of_holds (hb : s.holds s.pc (b1 :: bs))
    (hd : decode s.params.addrLowFirst (b1 :: bs) = .ok (i, [])) :
    fetchFromMemory s = .instr i { s.afterFetch b1 bs with intMoves := s.intMoves } := by
  obtain ⟨h1, hbs⟩ := hb
  have later : (acceptByte true false b1 s).holds (s.pc + 1) bs := holds_congr hbs rfl rfl
  simp only [fetchFromMemory, fetchByte_memory true false h1, fetchRest_of_holds s.pc later hd]
  simp [State.afterFetch, acceptByte, fetchCycles]

/-- The ordinary instruction boundary leads to the instruction that memory holds at `pc` (R108). -/
theorem nextInstr_of_holds (hrun : s.run = .running) (hno : s.noRequest = true) (hb : s.holds s.pc (b1 :: bs))
    (hd : decode s.params.addrLowFirst (b1 :: bs) = .ok (i, [])) :
    nextInstr s = .instr i (s.afterFetch b1 bs) := by
  have held : State.holds { s with intMoves := s.intMoves.tail } s.pc (b1 :: bs) := holds_congr hb rfl rfl
  rw [nextInstr_running hrun hno, fetchFromMemory_of_holds held hd]
  rfl

/-- A step from memory performs the instruction that memory holds at `pc`, in the state after its fetch (R108). -/
theorem step_of_holds (hrun : s.run = .running) (hno : s.noRequest = true) (hb : s.holds s.pc (b1 :: bs))
    (hd : decode s.params.addrLowFirst (b1 :: bs) = .ok (i, [])) : step s = exec i (s.afterFetch b1 bs) := by
  simp only [step, nextInstr_of_holds hrun hno hb hd]

end

end Sys2Proof.Proofs.MemoryFetch
end

section
/-! PROOFS. MOVE and MOVE IMMEDIATE (40_move.md). -/

namespace Sys2Proof.Proofs.Move

open Sys2Proof.Machine

theorem decode_of_lengthOf_two {lowFirst : Bool} {b1 b2 : Byte} (h : lengthOf b1 = 2) :
    decode lowFirst [b1, b2] = .ok (instrOf lowFirst b1 b2 0, []) := by
  simp [decode, h]

/-- OP = 00 is read in its own table (R100). -/
theorem instrOf_op00 (lowFirst : Bool) (a b : BitVec 3) (b2 b3 : Byte) :
    instrOf lowFirst (firstByte 0 a b) b2 b3 = decodeOp00 a b b2 := by
  simp [instrOf]

/-- `00 ddd 110`, n is the two bytes of MOVI d,n (R133). -/
theorem decode_moviR (lowFirst : Bool) (dst : Reg) (n : Byte) :
    decode lowFirst [firstByte 0 dst.code 6, n] = .ok (.moviR dst n, []) := by
  rw [decode_of_lengthOf_two (Laws.lengthOf_low dst.code 6), instrOf_op00, OpcodeMap.decodeOp00_moviR]

/-- MOVI d,n writes its destination and nothing else (R133). -/
theorem exec_moviR (dst : Reg) (n : Byte) (s : State) : exec (.moviR dst n) s = .next (s.setReg dst n) := rfl

/-- The destination of a register write holds the value, and the other registers keep theirs (10_state.md R20). -/
theorem get_set_frame (x : Regs) (dst : Reg) (v : Byte) :
    (x.set dst v).get dst = v ∧ ∀ r, r ≠ dst → (x.set dst v).get r = x.get r :=
  ⟨by simp, fun r hr => by simp [hr]⟩

/-- Settles O31: the fetch leaves `pc` past both bytes and logs their cycles, and the meaning is one register write. -/
theorem moveImmediateToRegister : Obligations.MoveImmediateToRegister := by
  intro s dst n
  obtain ⟨written, kept⟩ := get_set_frame s.regs dst n
  have decoded := decode_moviR s.params.addrLowFirst dst n
  refine ⟨decoded, ⟨_, exec_moviR dst n s, written, kept⟩, fun hrun hno hb => ?_⟩
  have stepped := MemoryFetch.step_of_holds hrun hno hb decoded
  refine ⟨_, stepped.trans (exec_moviR dst n _), written, ?_, rfl, rfl, rfl, kept⟩
  exact BitVec.add_assoc s.pc 1 1

end Sys2Proof.Proofs.Move
end

section
/-! PROOFS. The conditional jumps without stacking, and HALT's second coding (42_control.md). -/

namespace Sys2Proof.Proofs.Control

open Sys2Proof.Machine

/-! ### The decoder on a jump and on OP = 11 -/

theorem decode_of_lengthOf_one {lowFirst : Bool} {b1 : Byte} (h : lengthOf b1 = 1) :
    decode lowFirst [b1] = .ok (instrOf lowFirst b1 0 0, []) := by
  simp [decode, h]

theorem decode_of_lengthOf_three {lowFirst : Bool} {b1 b2 b3 : Byte} (h : lengthOf b1 = 3) :
    decode lowFirst [b1, b2, b3] = .ok (instrOf lowFirst b1 b2 b3, []) := by
  simp [decode, h]

/-- `01 icc xy0` and its two address bytes are read whole, as the opcode map has it (R92, R96). -/
theorem decode_jump (lowFirst : Bool) (b2 b3 : Byte) (icc : BitVec 3) (x y : Bool) :
    decode lowFirst [firstByte 1 icc (BitVec.ofBool x ++ BitVec.ofBool y ++ 0#1), b2, b3] =
      .ok (decodeJump icc x y (targetOf lowFirst b2 b3), []) := by
  have three := OpcodeMap.lengthOf_jump icc x y
  have entry := (OpcodeMap.firstInstr_of_lengthOf_three three).symm.trans
    (OpcodeMap.firstInstr_jump lowFirst b2 b3 icc x y)
  rw [decode_of_lengthOf_three three, Option.some.inj entry]

/-- `11 ddd sss` is read whole from its one byte (R92, R93). -/
theorem decode_op11 (lowFirst : Bool) (ddd sss : BitVec 3) :
    decode lowFirst [firstByte 3 ddd sss] = .ok (decodeOp11 ddd sss, []) := by
  have one := (Laws.lengthOf_high ddd sss).1
  have entry := (OpcodeMap.firstInstr_of_lengthOf_one one).symm.trans (OpcodeMap.firstInstr_op11 lowFirst 0 0 ddd sss)
  rw [decode_of_lengthOf_one one, Option.some.inj entry]

/-! ### The conditional jumps, by sense bit and condition -/

/-- The code CC of a condition (R190). -/
def condCode : Cond → BitVec 2
  | .carry => 0
  | .zero => 1
  | .sign => 2
  | .parity => 3

/-- Columns I and CC of a conditional instruction with sense bit `i` (R95). -/
def iccOf (i : Bool) (cc : Cond) : BitVec 3 := BitVec.ofBool i ++ condCode cc

/-- The conditional jump without stacking that the decoder reads from `01 icc 000` (R96). -/
def conditionalJump (i : Bool) (cc : Cond) (t : Addr) : Instr := decodeConditional (iccOf i cc) false t

/-- A conditional jump goes to its target exactly where the flip-flop that CC selects equals I (R193, R194). -/
theorem exec_conditionalJump (i : Bool) (cc : Cond) (t : Addr) (s : State) :
    exec (conditionalJump i cc t) s = jumpIf (executes i cc s) t s := by
  cases i with
  | false => cases cc <;> rfl
  | true => cases cc <;> rfl

theorem jumpForm_conditionalJump (i : Bool) (cc : Cond) : JumpForm (conditionalJump i cc) (executes i cc) :=
  fun s t => exec_conditionalJump i cc t s

/-- The fetch leaves the flip-flops alone, and with them the condition (10_state.md R32). -/
theorem executes_afterFetch (i : Bool) (cc : Cond) (s : State) (b1 : Byte) (bs : List Byte) :
    executes i cc (s.afterFetch b1 bs) = executes i cc s := rfl

/-- The fetch of a three-byte instruction leaves `pc` three past its first byte (10_state.md R27). -/
theorem afterFetch_pc_three_bytes (s : State) (b1 b2 b3 : Byte) : (s.afterFetch b1 [b2, b3]).pc = s.pc + 3 :=
  BitVec.add_assoc s.pc 1 2

/-- A jump's form carries over to its step: the fetch decides neither the condition nor, where the jump is not
taken, where `pc` stands (R108). -/
theorem jumpStep_of_jumpForm {b1 : Byte} {jump : Addr → Instr} {taken : State → Bool} (form : JumpForm jump taken)
    (decoded : ∀ (lowFirst : Bool) (b2 b3 : Byte),
      decode lowFirst [b1, b2, b3] = .ok (jump (targetOf lowFirst b2 b3), []))
    (kept : ∀ (s : State) (bs : List Byte), taken (s.afterFetch b1 bs) = taken s) : JumpStep b1 jump taken := by
  refine ⟨decoded, fun s b2 b3 hrun hno hb => ?_⟩
  rw [MemoryFetch.step_of_holds hrun hno hb (decoded s.params.addrLowFirst b2 b3), form, kept]
  cases taken s with
  | false =>
    rw [← afterFetch_pc_three_bytes s b1 b2 b3]
    rfl
  | true => rfl

theorem jumpStep_conditionalJump (i : Bool) (cc : Cond) :
    JumpStep (firstByte 1 (iccOf i cc) 0) (conditionalJump i cc) (executes i cc) :=
  jumpStep_of_jumpForm (jumpForm_conditionalJump i cc)
    (fun lowFirst b2 b3 => decode_jump lowFirst b2 b3 (iccOf i cc) false false)
    (fun s bs => executes_afterFetch i cc s _ bs)

/-- Settles O46: the four conditional jumps with I = 0. -/
theorem jumpIfFalse : Obligations.JumpIfFalse :=
  ⟨jumpForm_conditionalJump false .carry, jumpForm_conditionalJump false .zero,
    jumpForm_conditionalJump false .sign, jumpForm_conditionalJump false .parity,
    jumpStep_conditionalJump false .carry, jumpStep_conditionalJump false .zero,
    jumpStep_conditionalJump false .sign, jumpStep_conditionalJump false .parity⟩

/-- Settles O47: the four conditional jumps with I = 1. -/
theorem jumpIfTrue : Obligations.JumpIfTrue :=
  ⟨jumpForm_conditionalJump true .carry, jumpForm_conditionalJump true .zero,
    jumpForm_conditionalJump true .sign, jumpForm_conditionalJump true .parity,
    jumpStep_conditionalJump true .carry, jumpStep_conditionalJump true .zero,
    jumpStep_conditionalJump true .sign, jumpStep_conditionalJump true .parity⟩

/-! ### HALT -/

/-- HALT writes the run condition and nothing else (R199). -/
theorem exec_halt (s : State) : exec .halt s = .next { s with run := .stopped } := rfl

/-- Both codings of HALT have one meaning (R200). -/
theorem exec_haltFF (s : State) : exec .haltFF s = exec .halt s := rfl

/-- 0xFF has both codes 7 and is HALT, not a move of M to itself (R101). -/
theorem decode_haltFF (lowFirst : Bool) : decode lowFirst [0xFF] = .ok (.haltFF, []) :=
  decode_op11 lowFirst memCode memCode

/-- The fetch of a one-byte instruction: `pc` is one past it, and its PCI cycle is the only one (R108). -/
theorem afterFetch_one_byte (s : State) (b : Byte) :
    s.afterFetch b [] = { s with
      pc := s.pc + 1, ir := b, iaddr := s.pc, intMoves := s.intMoves.tail, bus := .pci s.pc b false :: s.bus } := by
  simp [State.afterFetch, fetchCycles]

/-- Settles O56: the step fetches one byte, and HALT's meaning adds no cycle to that of the fetch. -/
theorem haltSecondCoding : Obligations.HaltSecondCoding := by
  intro s
  have decoded := decode_haltFF s.params.addrLowFirst
  have stopped (u : State) : exec .haltFF u = .next { u with run := .stopped } := (exec_haltFF u).trans (exec_halt u)
  refine ⟨decoded, exec_haltFF s, stopped s, fun hrun hno hb => ?_⟩
  have held : s.holds s.pc [0xFF] := ⟨hb, trivial⟩
  rw [MemoryFetch.step_of_holds hrun hno held decoded, stopped, afterFetch_one_byte]

end Sys2Proof.Proofs.Control
end

section
/-! PROOFS. The insertion of a one-byte instruction, and of HALT (60_exceptions.md). -/

namespace Sys2Proof.Proofs.InsertedHalt

open Sys2Proof.Machine

/-! ### A one-byte instruction inserted -/

section
variable {b1 : Byte} {d2 d3 : Option Byte} {i : Instr} {s : State}

/-- A first byte that asks for no other ends the fetch, whatever is offered after it (30_encoding.md R92). -/
theorem fetchRest_of_lengthOf_one (one : lengthOf b1 = 1) (at0 : Addr) (advance : Bool) :
    fetchRest b1 at0 d2 d3 advance s =
      .instr (instrOf s.params.addrLowFirst b1 0 0) { s with ir := b1, iaddr := at0 } := by
  simp [fetchRest, one]

/-- The interrupt fetch is the only cycle of an inserted one-byte instruction, and `pc` stands (R233). -/
theorem afterInsert_one_byte (s : State) (b : Byte) :
    s.afterInsert b [] = { s with
      run := .running, ir := b, iaddr := s.pc, intMoves := s.intMoves.tail, bus := .pci s.pc b true :: s.bus } := by
  simp [State.afterInsert, insertedCycles]

/-- The interrupt sequence with a driven one-byte instruction (R233, R234). -/
theorem fetchInserted_of_lengthOf_one (one : lengthOf b1 = 1) :
    fetchInserted ⟨some b1, d2, d3⟩ s = .instr (instrOf s.params.addrLowFirst b1 0 0)
      { s.afterInsert b1 [] with intMoves := s.intMoves } := by
  simp [fetchInserted, fetchRest_of_lengthOf_one one, afterInsert_one_byte, acceptByte, takeInterrupt]

/-- A step with a request performs the one-byte instruction that is inserted (R232, R237). -/
theorem step_of_inserted_one_byte {moves : List (Option Insertion)}
    (request : s.intMoves = some ⟨some b1, d2, d3⟩ :: moves)
    (decoded : decode s.params.addrLowFirst [b1] = .ok (i, [])) : step s = exec i (s.afterInsert b1 []) := by
  rcases MemoryFetch.decode_whole_cases decoded with ⟨one, -, rfl⟩ | ⟨_, _, more, _⟩ | ⟨_, _, _, more, _⟩
  · simp only [step, nextInstr_request request, fetchInserted_of_lengthOf_one one]
    simp [State.afterInsert, request]
  · cases more
  · cases more

end

/-! ### HALT inserted -/

/-- `00 000 00-` is read whole from its one byte (42_control.md R199). -/
theorem decode_halt (lowFirst : Bool) :
    decode lowFirst [0x00] = .ok (.halt, []) ∧ decode lowFirst [0x01] = .ok (.halt, []) :=
  ⟨Control.decode_of_lengthOf_one (Laws.lengthOf_low 0 0), Control.decode_of_lengthOf_one (Laws.lengthOf_low 0 1)⟩

/-- The three bytes of HALT decode to it, in one coding or the other, and both have one meaning (42_control.md R199,
R200). -/
theorem decode_haltByte {b : Byte} (hb : b = 0x00 ∨ b = 0x01 ∨ b = 0xFF) (lowFirst : Bool) :
    ∃ i, decode lowFirst [b] = .ok (i, []) ∧ ∀ u, exec i u = exec .halt u := by
  rcases hb with rfl | rfl | rfl
  · exact ⟨.halt, (decode_halt lowFirst).1, fun _ => rfl⟩
  · exact ⟨.halt, (decode_halt lowFirst).2, fun _ => rfl⟩
  · exact ⟨.haltFF, Control.decode_haltFF lowFirst, Control.exec_haltFF⟩

/-- Settles O13: the interrupt fetch leaves `pc` alone, and HALT's meaning writes the run condition only. -/
theorem insertedHaltStops : Obligations.InsertedHaltStops := by
  intro s b d2 d3 moves hb request
  obtain ⟨i, decoded, meaning⟩ := decode_haltByte hb s.params.addrLowFirst
  rw [step_of_inserted_one_byte request decoded, meaning, Control.exec_halt, afterInsert_one_byte, request]
  rfl

end Sys2Proof.Proofs.InsertedHalt
end

section
/-! PROOFS. The decoder and the encoder (30_encoding.md): the round trip, the lengths, the don't-care bits and the
priority of the rows. -/

namespace Sys2Proof.Proofs.Decoder

open Sys2Proof.Machine

/-! ### The decoder on exactly the bytes of an instruction, by OP -/

section
variable (lowFirst : Bool)

/-- `00 aaa bbb` with B other than 4 and 6 is read whole from its one byte (R92, R100). -/
theorem decode_op00_of_one_byte (a : BitVec 3) {b : BitVec 3} (hb : ¬ (b = 4 ∨ b = 6)) :
    decode lowFirst [firstByte 0 a b] = .ok (decodeOp00 a b 0, []) := by
  rw [Control.decode_of_lengthOf_one (by rw [Laws.lengthOf_low, if_neg hb]), Move.instrOf_op00]

/-- `00 aaa 1b0` and the byte after it are read whole (R92, R100). -/
theorem decode_op00_of_two_bytes (a : BitVec 3) {b : BitVec 3} (hb : b = 4 ∨ b = 6) (n : Byte) :
    decode lowFirst [firstByte 0 a b, n] = .ok (decodeOp00 a b n, []) := by
  rw [Move.decode_of_lengthOf_two (by rw [Laws.lengthOf_low, if_pos hb]), Move.instrOf_op00]

/-- `01 icc xy0` with the bytes of a target is the jump to it (R96, R98). -/
theorem decode_jump_target (icc : BitVec 3) (x y : Bool) (t : Addr) :
    decode lowFirst (firstByte 1 icc (BitVec.ofBool x ++ BitVec.ofBool y ++ 0#1) :: targetBytes lowFirst t) =
      .ok (decodeJump icc x y t, []) := by
  obtain ⟨b2, b3, bytes, target⟩ := targetOf_targetBytes lowFirst t
  rw [bytes, Control.decode_jump, target]

/-- `01 rrm mm1` is read whole from its one byte (R99). -/
theorem decode_io (rr : BitVec 2) (mmm : BitVec 3) :
    decode lowFirst [OpcodeMap.ioByte rr mmm] = .ok (decodeIo rr mmm, []) := by
  have one := (OpcodeMap.ioByte_fields rr mmm).1
  have entry := (OpcodeMap.firstInstr_of_lengthOf_one one).symm.trans (OpcodeMap.firstInstr_io lowFirst 0 0 rr mmm)
  rw [Control.decode_of_lengthOf_one one, Option.some.inj entry]

/-- `10 ppp sss` is read whole from its one byte (R93, R94). -/
theorem decode_op10 (ppp sss : BitVec 3) :
    decode lowFirst [firstByte 2 ppp sss] = .ok (decodeOp10 ppp sss, []) := by
  have one := (Laws.lengthOf_high ppp sss).2
  have entry := (OpcodeMap.firstInstr_of_lengthOf_one one).symm.trans (OpcodeMap.firstInstr_op10 lowFirst 0 0 ppp sss)
  rw [Control.decode_of_lengthOf_one one, Option.some.inj entry]

end

/-! ### The round trip -/

/-- The encoding of a well-formed instruction decodes to it (30_encoding.md sections 1 to 5). -/
theorem decode_encode (lowFirst : Bool) {i : Instr} (wf : i.wf = true) :
    decode lowFirst (encode lowFirst i) = .ok (i, []) := by
  have op00 (a : BitVec 3) {b : BitVec 3} (hb : ¬ (b = 4 ∨ b = 6)) := decode_op00_of_one_byte lowFirst a hb
  have imm (a : BitVec 3) (n : Byte) := decode_op00_of_two_bytes lowFirst a (b := 4) (.inl rfl) n
  have jump := decode_jump_target lowFirst
  have op10 := decode_op10 lowFirst
  have op11 := Control.decode_op11 lowFirst
  cases i with
  | halt => exact op00 0 (b := 0) (by decide)
  | haltFF => exact op11 7 7
  | moveRR dst src => exact (op11 _ _).trans (by rw [OpcodeMap.decodeOp11_moveRR])
  | moveRM dst => exact (op11 _ _).trans (by rw [OpcodeMap.decodeOp11_moveRM])
  | moveMR src => exact (op11 _ _).trans (by rw [OpcodeMap.decodeOp11_moveMR])
  | moviR dst n => exact Move.decode_moviR lowFirst dst n
  | moviM n => exact decode_op00_of_two_bytes lowFirst memCode (.inr rfl) n
  | adS src => exact (op10 _ _).trans (by simp only [OpcodeMap.decodeOp10_code])
  | adM => exact op10 0 7
  | adI n => exact imm 0 n
  | acS src => exact (op10 _ _).trans (by simp only [OpcodeMap.decodeOp10_code])
  | acM => exact op10 1 7
  | acI n => exact imm 1 n
  | suS src => exact (op10 _ _).trans (by simp only [OpcodeMap.decodeOp10_code])
  | suM => exact op10 2 7
  | suI n => exact imm 2 n
  | sbS src => exact (op10 _ _).trans (by simp only [OpcodeMap.decodeOp10_code])
  | sbM => exact op10 3 7
  | sbI n => exact imm 3 n
  | ndS src => exact (op10 _ _).trans (by simp only [OpcodeMap.decodeOp10_code])
  | ndM => exact op10 4 7
  | ndI n => exact imm 4 n
  | xrS src => exact (op10 _ _).trans (by simp only [OpcodeMap.decodeOp10_code])
  | xrM => exact op10 5 7
  | xrI n => exact imm 5 n
  | orS src => exact (op10 _ _).trans (by simp only [OpcodeMap.decodeOp10_code])
  | orM => exact op10 6 7
  | orI n => exact imm 6 n
  | cpS src => exact (op10 _ _).trans (by simp only [OpcodeMap.decodeOp10_code])
  | cpM => exact op10 7 7
  | cpI n => exact imm 7 n
  | shl => exact op00 0 (b := 2) (by decide)
  | shr => exact op00 1 (b := 2) (by decide)
  | jmp t => exact jump 0 true false t
  | call t => exact jump 0 true true t
  | jfc t => exact jump 0 false false t
  | jfz t => exact jump 1 false false t
  | jfs t => exact jump 2 false false t
  | jfp t => exact jump 3 false false t
  | jtc t => exact jump 4 false false t
  | jtz t => exact jump 5 false false t
  | jts t => exact jump 6 false false t
  | jtp t => exact jump 7 false false t
  | cfc t => exact jump 0 false true t
  | cfz t => exact jump 1 false true t
  | cfs t => exact jump 2 false true t
  | cfp t => exact jump 3 false true t
  | ctc t => exact jump 4 false true t
  | ctz t => exact jump 5 false true t
  | cts t => exact jump 6 false true t
  | ctp t => exact jump 7 false true t
  | rfc => exact op00 0 (b := 7) (by decide)
  | rfz => exact op00 1 (b := 7) (by decide)
  | rfs => exact op00 2 (b := 7) (by decide)
  | rfp => exact op00 3 (b := 7) (by decide)
  | rtc => exact op00 4 (b := 7) (by decide)
  | rtz => exact op00 5 (b := 7) (by decide)
  | rts => exact op00 6 (b := 7) (by decide)
  | rtp => exact op00 7 (b := 7) (by decide)
  | rst k => exact op00 k (b := 5) (by decide)
  | inp m => exact decode_io lowFirst 0 m
  | io r m =>
    have hr : r ≠ 0 := by simpa [Instr.wf] using wf
    exact (decode_io lowFirst r m).trans (by rw [OpcodeMap.decodeIo_io hr])
  | unassigned0 a =>
    have ha : a ≠ 0 := by simpa [Instr.wf] using wf
    exact (op00 a (by decide)).trans (by rw [OpcodeMap.decodeOp00_unassigned0 ha])
  | unassigned1 a =>
    have ha : a ≠ 0 := by simpa [Instr.wf] using wf
    exact (op00 a (by decide)).trans (by rw [OpcodeMap.decodeOp00_unassigned1 ha])
  | unassigned2 a =>
    have ha : ∀ a : BitVec 3, (Instr.unassigned2 a).wf = true → 2 ≤ a.toNat := by decide
    exact (op00 a (by decide)).trans (by rw [OpcodeMap.decodeOp00_unassigned2 (ha a wf)])
  | unassigned3 a => exact op00 a (b := 3) (by decide)

section
variable {lowFirst : Bool} {b1 b2 b3 : Byte} {tl : List Byte}

theorem decode_one (h : lengthOf b1 = 1) : decode lowFirst (b1 :: tl) = .ok (instrOf lowFirst b1 0 0, tl) := by
  simp [decode, h]

theorem decode_two (h : lengthOf b1 = 2) : decode lowFirst (b1 :: b2 :: tl) = .ok (instrOf lowFirst b1 b2 0, tl) := by
  simp [decode, h]

theorem decode_three (h : lengthOf b1 = 3) :
    decode lowFirst (b1 :: b2 :: b3 :: tl) = .ok (instrOf lowFirst b1 b2 b3, tl) := by
  simp [decode, h]

end

/-- Every decode, by the number of bytes it takes (R92). -/
theorem decode_ok_cases {lowFirst : Bool} {b1 : Byte} {tl rest : List Byte} {i : Instr}
    (h : decode lowFirst (b1 :: tl) = .ok (i, rest)) :
    (lengthOf b1 = 1 ∧ tl = rest ∧ i = instrOf lowFirst b1 0 0) ∨
      (∃ b2, lengthOf b1 = 2 ∧ tl = b2 :: rest ∧ i = instrOf lowFirst b1 b2 0) ∨
      (∃ b2 b3, lengthOf b1 = 3 ∧ tl = b2 :: b3 :: rest ∧ i = instrOf lowFirst b1 b2 b3) := by
  unfold decode at h
  simp only at h
  split at h
  · cases h
    exact .inl ⟨‹_›, rfl, rfl⟩
  · cases h
    exact .inr (.inl ⟨_, ‹_›, rfl, rfl⟩)
  · cases h
    exact .inr (.inr ⟨_, _, ‹_›, rfl, rfl⟩)
  · cases h

/-- The decoder does not look beyond the instruction it reads (R91). -/
theorem decode_append {lowFirst : Bool} {bytes : List Byte} {i : Instr}
    (h : decode lowFirst bytes = .ok (i, [])) (rest : List Byte) :
    decode lowFirst (bytes ++ rest) = .ok (i, rest) := by
  cases bytes with
  | nil => cases h
  | cons b1 bs =>
    rcases decode_ok_cases h with ⟨hl, rfl, rfl⟩ | ⟨b2, hl, rfl, rfl⟩ | ⟨b2, b3, hl, rfl, rfl⟩
    · exact decode_one hl
    · exact decode_two hl
    · exact decode_three hl

/-- Settles O1: the bytes of the instruction decode to it, and what follows them is not looked at. -/
theorem decodeEncodeRoundTrip : Obligations.DecodeEncodeRoundTrip :=
  fun lowFirst _ rest wf => decode_append (decode_encode lowFirst wf) rest

/-! ### Lengths -/

section
variable (a b : BitVec 3) (n : Byte)

theorem decodeImmediate_wf : (decodeImmediate a n).wf = true := by
  unfold decodeImmediate
  split <;> rfl

theorem decodeReturn_wf : (decodeReturn a).wf = true := by
  unfold decodeReturn
  split <;> rfl

theorem decodeConditional_wf (y : Bool) (t : Addr) : (decodeConditional a y t).wf = true := by
  unfold decodeConditional
  split <;> rfl

theorem decodeJump_wf (x y : Bool) (t : Addr) : (decodeJump a x y t).wf = true := by
  cases x with
  | false => exact decodeConditional_wf a y t
  | true => cases y <;> rfl

theorem decodeIo_wf (rr : BitVec 2) : (decodeIo rr a).wf = true := by
  by_cases hr : rr = 0
  · subst hr
    rfl
  · rw [OpcodeMap.decodeIo_io hr]
    simpa [Instr.wf] using hr

theorem decodeOp10_wf : (decodeOp10 a b).wf = true := by
  unfold decodeOp10
  split <;> rfl

theorem decodeOp11_wf : (decodeOp11 a b).wf = true := by
  unfold decodeOp11
  split <;> rfl

/-- The codes of HALT, SHL and SHR are left out of the unassigned rows that they stand in (R102). -/
theorem decodeOp00_wf : (decodeOp00 a b n).wf = true := by
  unfold decodeOp00
  split
  · split
    · rfl
    · simpa [Instr.wf] using ‹¬ a = 0›
  · split
    · rfl
    · simpa [Instr.wf] using ‹¬ a = 0›
  · split
    · rfl
    · split
      · rfl
      · simpa [Instr.wf] using ⟨‹¬ a = 0›, ‹¬ a = 1›⟩
  · rfl
  · exact decodeImmediate_wf a n
  · rfl
  · split <;> rfl
  · exact decodeReturn_wf a

end

/-- Whatever the bytes, the instruction read from them is well-formed (R100). -/
theorem instrOf_wf (lowFirst : Bool) (b1 b2 b3 : Byte) : (instrOf lowFirst b1 b2 b3).wf = true := by
  unfold instrOf
  split
  · exact decodeOp00_wf _ _ _
  · split
    · exact decodeIo_wf _ _
    · exact decodeJump_wf _ _ _ _
  · exact decodeOp10_wf _ _
  · exact decodeOp11_wf _ _

/-- With as many bytes as the first one asks for the decoder reads an instruction (R92). -/
theorem decode_of_enough {b1 : Byte} {tl : List Byte} (lowFirst : Bool) (h : lengthOf b1 ≤ tl.length + 1) :
    ∃ i rest, decode lowFirst (b1 :: tl) = .ok (i, rest) := by
  rcases lengthOf_cases b1 with hl | hl | hl
  · exact ⟨_, _, decode_one hl⟩
  · match tl, h with
    | b2 :: tl, _ => exact ⟨_, _, decode_two hl⟩
    | [], h => simp [hl] at h
  · match tl, h with
    | b2 :: b3 :: tl, _ => exact ⟨_, _, decode_three hl⟩
    | [], h | [_], h => simp [hl] at h

/-- With fewer it says how many it wanted and how many it had (R92). -/
theorem decode_of_too_few {b1 : Byte} {tl : List Byte} (lowFirst : Bool) (h : tl.length + 1 < lengthOf b1) :
    decode lowFirst (b1 :: tl) = .error (.truncated (lengthOf b1) (tl.length + 1)) := by
  rcases lengthOf_cases b1 with hl | hl | hl
  · omega
  · match tl, h with
    | [], _ => simp [decode, hl]
    | _ :: _, h => simp [hl] at h
  · match tl, h with
    | [], _ | [_], _ => simp [decode, hl]
    | _ :: _ :: _, h =>
      simp only [List.length_cons] at h
      omega

/-- Settles O2, by the number of bytes that the decoder took. -/
theorem decodedInstructionsAreWellFormed : Obligations.DecodedInstructionsAreWellFormed := by
  intro lowFirst b1 tl
  refine ⟨fun i rest h => ?_, decode_of_enough lowFirst, decode_of_too_few lowFirst⟩
  rcases decode_ok_cases h with ⟨hl, rfl, rfl⟩ | ⟨b2, hl, rfl, rfl⟩ | ⟨b2, b3, hl, rfl, rfl⟩
  · exact ⟨instrOf_wf .., by simp [hl], by simp [hl]⟩
  · exact ⟨instrOf_wf .., by simp [hl], by simp [hl]⟩
  · exact ⟨instrOf_wf .., by simp [hl], by simp [hl]⟩

/-! ### Don't-care bits -/

theorem instrOf_jump (lowFirst : Bool) (b2 b3 : Byte) (icc : BitVec 3) (x y : Bool) :
    instrOf lowFirst (firstByte 1 icc (BitVec.ofBool x ++ BitVec.ofBool y ++ 0#1)) b2 b3 =
      decodeJump icc x y (targetOf lowFirst b2 b3) := by
  have three := OpcodeMap.lengthOf_jump icc x y
  exact Option.some.inj ((OpcodeMap.firstInstr_of_lengthOf_three three).symm.trans
    (OpcodeMap.firstInstr_jump lowFirst b2 b3 icc x y))

/-- The two spare bits of the high address byte are not part of the target (R98). -/
theorem targetOf_congr {hi hi' : Byte} (h : hi.extractLsb' 0 6 = hi'.extractLsb' 0 6) (lo : Byte) :
    targetOf true lo hi = targetOf true lo hi' ∧ targetOf false hi lo = targetOf false hi' lo := by
  simp [targetOf, h]

/-- With OP = 01 the later bytes count through the target alone (R98, R99). -/
theorem instrOf_congr_target {b1 b2 b3 c2 c3 : Byte} {lowFirst : Bool} (op : opField b1 = 1)
    (h : targetOf lowFirst b2 b3 = targetOf lowFirst c2 c3) :
    instrOf lowFirst b1 b2 b3 = instrOf lowFirst b1 c2 c3 := by
  simp [instrOf, op, h]

/-- Settles O3: X = 1 leaves I and CC unread, and the target leaves the spare bits unread. -/
theorem decoderIgnoresDontCareBits : Obligations.DecoderIgnoresDontCareBits := by
  intro lowFirst b1 lo hi hi' icc
  have jump := instrOf_jump lowFirst lo hi
  refine ⟨(InsertedHalt.decode_halt lowFirst).1, (InsertedHalt.decode_halt lowFirst).2,
    (jump icc true false).trans (jump 0 true false).symm, (jump icc true true).trans (jump 0 true true).symm,
    fun spare op => ?_⟩
  obtain ⟨low, high⟩ := targetOf_congr spare lo
  exact ⟨instrOf_congr_target op low, instrOf_congr_target op high⟩

end Sys2Proof.Proofs.Decoder
end

section
/-! PROOFS. The decoder against the opcode table (30_encoding.md R101), and words written out from the coding table. -/

namespace Sys2Proof.Proofs.OpcodeTable

open Sys2Proof.Machine

/-! ### The row of an instruction depends on its first byte alone -/

theorem rowOf_decodeImmediate (ppp : BitVec 3) (n : Byte) :
    rowOf (decodeImmediate ppp n) = rowOf (decodeImmediate ppp 0) := by
  unfold decodeImmediate
  split <;> rfl

theorem rowOf_decodeOp00 (a b : BitVec 3) (n : Byte) : rowOf (decodeOp00 a b n) = rowOf (decodeOp00 a b 0) := by
  by_cases hb : b = 4 ∨ b = 6
  · rcases hb with rfl | rfl
    · exact rowOf_decodeImmediate a n
    · unfold decodeOp00
      cases regOfCode a <;> rfl
  · rw [OpcodeMap.decodeOp00_of_one_byte a hb n]

theorem rowOf_decodeJump (icc : BitVec 3) (x y : Bool) (t u : Addr) :
    rowOf (decodeJump icc x y t) = rowOf (decodeJump icc x y u) := by
  cases x with
  | false =>
    show rowOf (decodeConditional icc y t) = rowOf (decodeConditional icc y u)
    unfold decodeConditional
    split <;> rfl
  | true => cases y <;> rfl

theorem rowOf_instrOf (lowFirst : Bool) (b1 b2 b3 : Byte) :
    rowOf (instrOf lowFirst b1 b2 b3) = rowOf (instrOf true b1 0 0) := by
  unfold instrOf
  split
  · exact rowOf_decodeOp00 _ _ _
  · split
    · rfl
    · exact rowOf_decodeJump _ _ _ _ _
  · rfl
  · rfl

/-! ### Priority -/

/-- A row has a byte, said of numbers: in this form the table below is evaluated several times faster. -/
theorem matches_eq (row : OpcodeRow) (b : Byte) :
    row.matches b = (b.toNat &&& row.mask.toNat == row.pattern.toNat) := by
  rw [OpcodeRow.matches, Bool.eq_iff_iff, beq_iff_eq, beq_iff_eq, ← BitVec.toNat_inj, BitVec.toNat_and]

/-- The row `row` at place `k` has the byte `b`, and more mask bits than every other row that has it (R101). -/
def takesPriority (b : Byte) (k : Nat) (row : OpcodeRow) : Bool :=
  row.matches b && opcodeRows.zipIdx.all fun (other, j) =>
    !(b.toNat &&& other.mask.toNat == other.pattern.toNat) || j == k || decide (other.maskBits < row.maskBits)

theorem takesPriority_iff {b : Byte} {k : Nat} {row : OpcodeRow} :
    takesPriority b k row = true ↔ row.matches b = true ∧ ∀ j other, opcodeRows[j]? = some other → j ≠ k →
      other.matches b = true → other.maskBits < row.maskBits := by
  simp only [takesPriority, ← matches_eq, Bool.and_eq_true, List.all_eq_true, Prod.forall,
    List.mem_zipIdx_iff_getElem?, Bool.or_eq_true, beq_iff_eq, Bool.not_eq_true', decide_eq_true_eq]
  refine and_congr_right fun _ => ⟨fun h j other at_j ne has => ?_, fun h other j at_j => ?_⟩
  · simpa [ne, has] using h other j at_j
  · by_cases ne : j = k
    · exact .inl (.inr ne)
    · cases has : other.matches b with
      | false => exact .inl (.inl rfl)
      | true => exact .inr (h j other at_j ne has)

/-- The table read through for each of the 256 first bytes, column by column. -/
theorem decoded_row_takesPriority : ∀ (op : BitVec 2) (a b : BitVec 3),
    (opcodeRows[rowOf (instrOf true (firstByte op a b) 0 0)]?).any
      (takesPriority (firstByte op a b) (rowOf (instrOf true (firstByte op a b) 0 0))) = true := by
  decide

/-- A byte is its three columns (R90). -/
theorem firstByte_fields (b : Byte) : firstByte (opField b) (aField b) (bField b) = b := by
  apply BitVec.eq_of_getLsbD_eq
  intro i hi
  rw [OpcodeMap.getLsbD_firstByte]
  split
  · simp [bField, *]
  · split
    · simp [aField, show i - 3 < 3 by omega, show 3 + (i - 3) = i by omega]
    · simp [opField, show i - 3 - 3 < 2 by omega, show 6 + (i - 3 - 3) = i by omega]

/-- Settles O4: the row depends on the first byte alone, and of those there are 256. -/
theorem decoderTakesTheMostSpecificRow : Obligations.DecoderTakesTheMostSpecificRow := by
  intro lowFirst b1 b2 b3
  have checked := decoded_row_takesPriority (opField b1) (aField b1) (bField b1)
  rw [firstByte_fields] at checked
  obtain ⟨row, found, priority⟩ := (Option.any_eq_true _ _).mp checked
  rw [rowOf_instrOf lowFirst b1 b2 b3]
  exact ⟨row, found, takesPriority_iff.mp priority⟩

/-! ### The unassigned bytes -/

/-- Settles O60: the four meanings are the refusal, and the table's last four rows are decoded from 28 bytes. -/
theorem unassignedBytesStop : Obligations.UnassignedBytesStop :=
  ⟨fun _ _ => ⟨rfl, rfl, rfl, rfl⟩, by decide⟩

/-! ### Words of the coding table -/

/-- Settles O6: each word is read by evaluating the decoder on it. -/
theorem writtenWordsDecode : Obligations.WrittenWordsDecode := by
  refine ⟨?_, ?_, ?_, ?_, ?_, ?_, ?_, ?_, ?_, ?_, ?_, ?_, ?_, ?_, ?_, ?_⟩ <;> rfl

/-! ### Numbers of fields side by side, and the unconditional jump -/

/-- The number that two fields side by side stand for. -/
theorem toNat_append_eq {m n : Nat} (x : BitVec m) (y : BitVec n) : (x ++ y).toNat = x.toNat * 2 ^ n + y.toNat := by
  rw [BitVec.toNat_append, ← Nat.shiftLeft_add_eq_or_of_lt y.isLt, Nat.shiftLeft_eq]

/-- The number a target stands for: the six low bits of one byte, then the other byte (R98). -/
theorem targetOf_toNat (b2 b3 : Byte) :
    (targetOf true b2 b3).toNat = b3.toNat % 64 * 256 + b2.toNat ∧
      (targetOf false b2 b3).toNat = b2.toNat % 64 * 256 + b3.toNat := by
  constructor
  · exact (toNat_append_eq _ _).trans (by simp)
  · exact (toNat_append_eq _ _).trans (by simp)

/-- Settles O44: X = 1 and Y = 0 select JMP whatever I and CC are, and its meaning writes `pc` alone. -/
theorem jumpUnconditional : Obligations.JumpUnconditional :=
  fun s icc b2 b3 _ => ⟨Control.decode_jump s.params.addrLowFirst b2 b3 icc true false,
    (targetOf_toNat b2 b3).1, (targetOf_toNat b2 b3).2, rfl⟩

end Sys2Proof.Proofs.OpcodeTable
end

section
/-! PROOFS. Memory contents, and the memory and fetch cycles (20_memory.md sections 2 to 4). -/

namespace Sys2Proof.Proofs.MemoryCycles

open Sys2Proof.Machine

/-! ### Contents -/

/-- A store changes what its own address reads as, and no other (R70). -/
theorem byteAt_store (m : Memory) (a b : Nat) (v : Byte) :
    (Memory.store m a v).byteAt b = if b = a then some v else Memory.byteAt m b := by
  induction m with
  | nil => simp [Memory.store, Memory.byteAt, eq_comm]
  | cons c rest ih =>
    obtain ⟨k, w⟩ := c
    unfold Memory.store
    split
    · simp [Memory.byteAt, eq_comm (a := a)]
    · split
      · rename_i at_k
        subst at_k
        by_cases hb : b = a
        · simp [Memory.byteAt, hb]
        · simp [Memory.byteAt, hb, Ne.symm hb]
      · rename_i not_k
        by_cases hk : k = b
        · subst hk
          simp [Memory.byteAt, Ne.symm not_k]
        · simp [Memory.byteAt, hk, ih]

theorem byteAt_store_same (m : Memory) (a : Nat) (v : Byte) : (Memory.store m a v).byteAt a = some v := by
  rw [byteAt_store, if_pos rfl]

theorem byteAt_store_other {m : Memory} {a b : Nat} (h : b ≠ a) (v : Byte) :
    (Memory.store m a v).byteAt b = Memory.byteAt m b := by
  rw [byteAt_store, if_neg h]

/-- Settles O7. -/
theorem memoryReadAfterWrite : Obligations.MemoryReadAfterWrite := byteAt_store

/-! ### One cycle -/

section
variable {s : State} {a : Addr}

theorem readByte_of_written {b : Byte} (h : a.toNat < s.params.memSize) (hb : s.mem.byteAt a.toNat = some b) :
    readByte s a = .ok b := by
  simp [readByte, Nat.not_le.mpr h, hb]

theorem readByte_of_unwritten (h : a.toNat < s.params.memSize) (hb : s.mem.byteAt a.toNat = none) :
    readByte s a = .error (.unwrittenRead a) := by
  simp [readByte, Nat.not_le.mpr h, hb]

theorem readByte_beyond (h : s.params.memSize ≤ a.toNat) : readByte s a = .error (.unimplemented a) :=
  if_pos h

theorem memRead_of_ok {b : Byte} (h : readByte s a = .ok b) : memRead s a = .ok (b, s.log (.pcr a b)) := by
  simp [memRead, h]

theorem memRead_of_error {f : Fault} (h : readByte s a = .error f) : memRead s a = .error f := by
  simp [memRead, h]

theorem memWrite_inside (h : a.toNat < s.params.memSize) (v : Byte) :
    memWrite s a v = .ok ({ s with mem := s.mem.store a.toNat v }.log (.pcw a v)) :=
  if_neg (Nat.not_le.mpr h)

theorem memWrite_beyond (h : s.params.memSize ≤ a.toNat) (v : Byte) : memWrite s a v = .error (.unimplemented a) :=
  if_pos h

end

/-- The next address, modulo 16384 (10_state.md R27). -/
theorem toNat_succ (a : Addr) : (a + 1).toNat = (a.toNat + 1) % 16384 := BitVec.toNat_add a 1

/-- A fetch for which memory answers nothing stops with memory's fault. -/
theorem fetchByte_of_error {s : State} {f : Fault} (h : readByte s s.pc = .error f) :
    fetchByte none true false s = .error f :=
  fetchByte_not_supplied (s := s) (d := none) rfl rfl rfl true false h

/-- Settles O8: each primitive is one read or one write of a byte, and its cycle. -/
theorem memoryPrimitives : Obligations.MemoryPrimitives := by
  intro s a v
  refine ⟨fun inside => ⟨fun b hb => ?_, fun hb => ?_, ?_⟩, fun beyond => ⟨?_, memWrite_beyond beyond v⟩,
    fun inside => ⟨fun b hb => ?_, fun hb => ?_⟩, fun beyond => ?_⟩
  · exact memRead_of_ok (readByte_of_written inside hb)
  · exact memRead_of_error (readByte_of_unwritten inside hb)
  · exact ⟨_, memWrite_inside inside v, byteAt_store_same _ _ v, fun x hx => byteAt_store_other hx v⟩
  · exact memRead_of_error (readByte_beyond beyond)
  · exact ⟨s.pc + 1, toNat_succ s.pc, fetchByte_memory true false (readByte_of_written inside hb)⟩
  · exact fetchByte_of_error (readByte_of_unwritten inside hb)
  · exact fetchByte_of_error (readByte_beyond beyond)

end Sys2Proof.Proofs.MemoryCycles
end

section
/-! PROOFS. What each instruction's meaning leaves unchanged: every frame is read off its effect (`exec_effect`). -/

namespace Sys2Proof.Proofs.Frames

open Sys2Proof.Machine

variable {i : Instr} {s t : State}

/-! ### Taking the operand -/

/-- Taking the operand adds at most one PCR cycle, of the byte that memory holds (41_arithmetic.md R150). -/
theorem operandTaken_eq {m : State} (h : OperandTaken s m) :
    ∃ new, m = { s with bus := new ++ s.bus } ∧
      (new = [] ∨ ∃ b, s.mem.byteAt (maddr s).toNat = some b ∧ new = [.pcr (maddr s) b]) := by
  rcases h with rfl | ⟨b, hb, rfl⟩
  · exact ⟨[], rfl, .inl rfl⟩
  · exact ⟨[.pcr (maddr s) b], rfl, .inr ⟨b, (readByte_ok hb).2, rfl⟩⟩

/-! ### Registers and flip-flops -/

/-- The accumulator is the one register that an operation, a shift or I/O CONTROL can write. -/
theorem get_with_a {x : Regs} {r : Reg} (v : Byte) (h : r ≠ .a) : { x with a := v }.get r = x.get r := by
  rw [← Regs.set_a, Regs.get_set, if_neg h]

/-- A register that the instruction does not write keeps its value (10_state.md R25). -/
theorem effect_get (e : Effect i s t) {r : Reg} (h : writesReg i ≠ some r) : t.regs.get r = s.regs.get r := by
  cases e with
  | operation p v m taken flags reg =>
    obtain ⟨new, rfl, -⟩ := operandTaken_eq taken
    rw [aluStep_eq]
    cases hk : keepsResult p with
    | false => simp
    | true =>
      have hr : r ≠ .a := by rintro rfl; simp [reg, hk] at h
      simpa using get_with_a _ hr
  | move dst v m taken flags reg =>
    obtain ⟨new, rfl, -⟩ := operandTaken_eq taken
    have hr : r ≠ dst := by rintro rfl; exact h reg
    simp [hr]
  | store => rfl
  | shift right flags reg =>
    have hr : r ≠ .a := by rintro rfl; exact h reg
    exact get_with_a _ hr
  | nothing => rfl
  | jump => rfl
  | linkage => rfl
  | halt => rfl
  | ioControl ctl io flags reg =>
    rcases ioControl_cases ctl s with ⟨hc, eq⟩ | ⟨-, eq⟩
    · have hr : r ≠ .a := by rintro rfl; exact h (reg hc)
      rw [eq]
      exact get_with_a _ hr
    · rw [eq]
      rfl

/-- Settles O22. -/
theorem registerWriters : Obligations.RegisterWriters := fun _ _ _ _ h => effect_get (exec_effect h)

/-- Only the operations write ZERO, SIGN and PARITY, and besides them only a shift writes CARRY (10_state.md R32). -/
theorem effect_flags (e : Effect i s t) :
    writesFlags i = .allFour ∨ (writesFlags i = .carryOnly ∧ ∃ c, t.flags = { s.flags with c := c }) ∨
      t.flags = s.flags := by
  cases e with
  | operation p v m taken flags => exact .inl flags
  | move dst v m taken =>
    obtain ⟨new, rfl, -⟩ := operandTaken_eq taken
    exact .inr (.inr rfl)
  | store => exact .inr (.inr rfl)
  | shift right flags => exact .inr (.inl ⟨flags, _, rfl⟩)
  | nothing => exact .inr (.inr rfl)
  | jump => exact .inr (.inr rfl)
  | linkage => exact .inr (.inr rfl)
  | halt => exact .inr (.inr rfl)
  | ioControl ctl =>
    rcases ioControl_cases ctl s with ⟨-, eq⟩ | ⟨-, eq⟩
    · exact .inr (.inr (by rw [eq]))
    · exact .inr (.inr (by rw [eq]; rfl))

/-- Settles O23. -/
theorem flipFlopWriters : Obligations.FlipFlopWriters := by
  intro i s t h
  rcases effect_flags (exec_effect h) with four | ⟨carry, c, eq⟩ | eq
  · exact ⟨fun hn => absurd four hn, fun hn => by rw [four] at hn; cases hn⟩
  · exact ⟨fun _ => by simp [eq], fun hn => by rw [carry] at hn; cases hn⟩
  · exact ⟨fun _ => by simp [eq], fun _ => eq⟩

/-! ### The other fields -/

/-- Effects by the fields they can write: the operations, moves into a register, shifts and I/O CONTROL write none of
`pc`, the stack, memory and the run condition, and each of the others writes only its own of these. -/
inductive Shape (i : Instr) (s : State) : State → Prop
  | quiet (x : Regs) (f : Flags) (bus : List BusCycle) (answers : List Byte)
      (kept : isIo i = false → answers = s.ioAnswers) :
      Shape i s { s with regs := x, flags := f, bus := bus, ioAnswers := answers }
  | store (v : Byte) (room : (maddr s).toNat < s.params.memSize) (stores : storesTo i s = some (maddr s)) :
      Shape i s ({ s with mem := s.mem.store (maddr s).toNat v }.log (.pcw (maddr s) v))
  | transfer (a : Addr) (k : AddrStack) (pc : writesPc i s = true)
      (stack : (mayPush i = true ∨ isReturn i = true) ∨ k = s.stk) : Shape i s { s with stk := k, pc := a }
  | halt (which : i = .halt ∨ i = .haltFF) : Shape i s { s with run := .stopped }

theorem effect_shape (e : Effect i s t) : Shape i s t := by
  cases e with
  | operation p v m taken =>
    obtain ⟨new, rfl, -⟩ := operandTaken_eq taken
    rw [aluStep_eq]
    exact .quiet _ _ _ _ fun _ => rfl
  | move dst v m taken =>
    obtain ⟨new, rfl, -⟩ := operandTaken_eq taken
    exact .quiet _ _ _ _ fun _ => rfl
  | store v value room flags reg flow stores => exact .store v room stores
  | shift => exact .quiet _ _ _ _ fun _ => rfl
  | nothing => exact .quiet s.regs s.flags s.bus s.ioAnswers fun _ => rfl
  | jump a flags reg stores io pc => exact .transfer a s.stk pc (.inr rfl)
  | linkage a k flags reg stores io pc stack => exact .transfer a k pc (.inl stack)
  | halt which => exact .halt which
  | ioControl ctl io =>
    rcases ioControl_cases ctl s with ⟨-, eq⟩ | ⟨-, eq⟩
    · rw [eq]
      exact .quiet _ _ _ _ fun no => by simp [io] at no
    · rw [eq]
      exact .quiet _ _ _ _ fun _ => rfl

theorem shape_of_exec (h : exec i s = .next t) : Shape i s t := effect_shape (exec_effect h)

/-- Settles O26. -/
theorem otherStateFrame : Obligations.OtherStateFrame := by
  intro i s t h
  cases shape_of_exec h with
  | quiet x f bus answers kept => exact ⟨rfl, rfl, rfl, rfl, fun _ _ => rfl, kept⟩
  | store => exact ⟨rfl, rfl, rfl, rfl, fun _ _ => rfl, fun _ => rfl⟩
  | transfer => exact ⟨rfl, rfl, rfl, rfl, fun _ _ => rfl, fun _ => rfl⟩
  | halt which =>
    exact ⟨rfl, rfl, rfl, rfl, fun first second => absurd which (not_or.mpr ⟨first, second⟩), fun _ => rfl⟩

theorem exec_params (h : exec i s = .next t) : t.params = s.params := by
  obtain ⟨-, -, -, params, -⟩ := otherStateFrame i s t h
  exact params

/-- Only an instruction that writes `pc` in this state changes it (10_state.md R28). -/
theorem exec_pc (h : exec i s = .next t) : writesPc i s = true ∨ t.pc = s.pc := by
  cases shape_of_exec h with
  | quiet => exact .inr rfl
  | store => exact .inr rfl
  | transfer a k pc => exact .inl pc
  | halt => exact .inr rfl

/-- Only a stacking jump, RESTART or a return changes the stack (10_state.md R29). -/
theorem exec_stk (h : exec i s = .next t) : (mayPush i = true ∨ isReturn i = true) ∨ t.stk = s.stk := by
  cases shape_of_exec h with
  | quiet => exact .inr rfl
  | store => exact .inr rfl
  | transfer a k pc stack => exact stack
  | halt => exact .inr rfl

/-- A meaning leaves memory alone, or stores one byte at `Maddr()`, which is implemented (40_move.md R132, R134). -/
theorem exec_mem (h : exec i s = .next t) :
    t.mem = s.mem ∨ storesTo i s = some (maddr s) ∧ (maddr s).toNat < s.params.memSize ∧
      ∃ v, t.mem = s.mem.store (maddr s).toNat v := by
  cases shape_of_exec h with
  | quiet => exact .inl rfl
  | store v room stores => exact .inr ⟨stores, room, v, rfl⟩
  | transfer => exact .inl rfl
  | halt => exact .inl rfl

/-! ### Memory -/

/-- A read depends on MEM_SIZE and on what its own address holds (20_memory.md R70, R75). -/
theorem readByte_congr_at {a : Addr} (m : t.mem.byteAt a.toNat = s.mem.byteAt a.toNat) (p : t.params = s.params) :
    readByte t a = readByte s a := by
  unfold readByte
  rw [m, p]

/-- The byte that a move into memory has stored is read back (20_memory.md R70). -/
theorem readByte_of_stored {v : Byte} (h : orFault (writeM s v) .next = .next t) : readByte t (maddr s) = .ok v := by
  obtain ⟨u, written, next⟩ := orFault_next h
  obtain ⟨room, rfl⟩ := memWrite_ok written
  cases next
  exact MemoryCycles.readByte_of_written room (MemoryCycles.byteAt_store_same _ _ v)

/-- Settles O24: a store shows at its own address alone. -/
theorem memoryWriters : Obligations.MemoryWriters := by
  intro i s t h
  refine ⟨fun a ha => ?_, fun src hi => ?_, fun n hi => ?_⟩
  · refine readByte_congr_at ?_ (exec_params h)
    rcases exec_mem h with mem | ⟨stores, -, v, mem⟩
    · rw [mem]
    · have other : a.toNat ≠ (maddr s).toNat := fun same =>
        ha (stores.trans (congrArg some (BitVec.eq_of_toNat_eq same.symm)))
      rw [mem, MemoryCycles.byteAt_store_other other]
  · subst hi
    exact readByte_of_stored h
  · subst hi
    exact readByte_of_stored h

/-! ### The history -/

/-- The bus cycles `new` of a stretch of execution from `s` to `t` explain what became of memory (20_memory.md R76). -/
structure Explains (fetches : Bool) (new : List BusCycle) (s t : State) : Prop where
  bus : t.bus = new ++ s.bus
  mem : t.mem = replay new s.mem
  reads : readsExplained fetches new s.mem

/-- The bus cycles that a meaning adds explain what it did to memory, and are I/O only for I/O CONTROL
(43_io.md R223). -/
structure AddedCycles (i : Instr) (s t : State) (new : List BusCycle) : Prop extends Explains true new s t where
  noIo : isIo i = false → ∀ c ∈ new, c.isPcc = false
  io : isIo i = true → ∃ ctl out inp, new = [.pcc ctl out inp]

theorem addedCycles_none (no : isIo i = false) (bus : t.bus = s.bus) (mem : t.mem = s.mem) : AddedCycles i s t [] :=
  ⟨⟨bus, mem, trivial⟩, by simp, by simp [no]⟩

/-- The cycle of the memory operand, or none. -/
theorem addedCycles_operand (no : isIo i = false) {new : List BusCycle}
    (cycle : new = [] ∨ ∃ b, s.mem.byteAt (maddr s).toNat = some b ∧ new = [.pcr (maddr s) b])
    (bus : t.bus = new ++ s.bus) (mem : t.mem = s.mem) : AddedCycles i s t new := by
  rcases cycle with rfl | ⟨b, hb, rfl⟩
  · exact addedCycles_none no bus mem
  · exact ⟨⟨bus, mem, hb, trivial⟩, by simp [BusCycle.isPcc], by simp [no]⟩

theorem effect_addedCycles (e : Effect i s t) : ∃ new, AddedCycles i s t new := by
  cases e with
  | operation p v m taken flags reg flow stores io =>
    obtain ⟨new, rfl, cycle⟩ := operandTaken_eq taken
    rw [aluStep_eq]
    exact ⟨new, addedCycles_operand io cycle rfl rfl⟩
  | move dst v m taken flags reg flow stores io =>
    obtain ⟨new, rfl, cycle⟩ := operandTaken_eq taken
    exact ⟨new, addedCycles_operand io cycle rfl rfl⟩
  | store v value room flags reg flow stores io =>
    exact ⟨[.pcw (maddr s) v], ⟨rfl, rfl, trivial⟩, by simp [BusCycle.isPcc], by simp [io]⟩
  | shift right flags reg flow stores io => exact ⟨[], addedCycles_none io rfl rfl⟩
  | nothing flags reg stores io => exact ⟨[], addedCycles_none io rfl rfl⟩
  | jump t flags reg stores io => exact ⟨[], addedCycles_none io rfl rfl⟩
  | linkage t k flags reg stores io => exact ⟨[], addedCycles_none io rfl rfl⟩
  | halt which =>
    have io : isIo i = false := by rcases which with rfl | rfl <;> rfl
    exact ⟨[], addedCycles_none io rfl rfl⟩
  | ioControl ctl io =>
    rcases ioControl_cases ctl s with ⟨-, eq⟩ | ⟨-, eq⟩
    · rw [eq]
      exact ⟨[_], ⟨rfl, rfl, trivial⟩, by simp [io], fun _ => ⟨_, _, _, rfl⟩⟩
    · rw [eq]
      exact ⟨[_], ⟨rfl, rfl, trivial⟩, by simp [io], fun _ => ⟨_, _, _, rfl⟩⟩

theorem exec_addedCycles (h : exec i s = .next t) : ∃ new, AddedCycles i s t new :=
  effect_addedCycles (exec_effect h)

/-! ### I/O -/

/-- `01 rrm mm1` is I/O CONTROL whatever RR is (30_encoding.md R99). -/
theorem isIo_decodeIo (rr : BitVec 2) (mmm : BitVec 3) : isIo (decodeIo rr mmm) = true := by
  unfold decodeIo
  split <;> rfl

/-- `01 icc xy0` is a jump whatever I, CC, X and Y are (30_encoding.md R96). -/
theorem flowOf_decodeJump (icc : BitVec 3) (x y : Bool) (t : Addr) :
    ∃ c z u, flowOf (decodeJump icc x y t) = .jump c z u := by
  cases x with
  | false =>
    show ∃ c z u, flowOf (decodeConditional icc y t) = .jump c z u
    unfold decodeConditional
    split <;> exact ⟨_, _, _, rfl⟩
  | true => cases y <;> exact ⟨_, _, _, rfl⟩

/-- Settles O27. -/
theorem ioSeparation : Obligations.IoSeparation := by
  refine ⟨fun i s t h => ?_, fun lowFirst b1 b2 b3 op => ⟨fun bit => ?_, fun bit => ?_⟩⟩
  · obtain ⟨new, ⟨bus, mem, -⟩, noIo, io⟩ := exec_addedCycles h
    obtain ⟨-, -, -, -, -, answers⟩ := otherStateFrame i s t h
    refine ⟨fun hi => ?_, fun hi => ⟨answers hi, new, bus, noIo hi⟩⟩
    obtain ⟨ctl, out, inp, rfl⟩ := io hi
    exact ⟨mem, ctl, out, inp, bus⟩
  · have table : instrOf lowFirst b1 b2 b3 = decodeIo (b1.extractLsb' 4 2) (b1.extractLsb' 1 3) := by
      simp only [instrOf, op, bit]
      rfl
    rw [table]
    exact isIo_decodeIo _ _
  · have table : instrOf lowFirst b1 b2 b3 =
        decodeJump (aField b1) (b1.getLsbD 2) (b1.getLsbD 1) (targetOf lowFirst b2 b3) := by
      simp only [instrOf, op, bit]
      rfl
    rw [table]
    exact flowOf_decodeJump _ _ _ _

end Sys2Proof.Proofs.Frames
end

section
/-! PROOFS. Only stacking jumps, RESTART and returns touch the stack (10_state.md R29). -/

namespace Sys2Proof.Proofs.StackPrivate

open Sys2Proof.Machine

/-- A meaning that neither reads nor writes the stack: put another stack in, and the outcome has it in. -/
def IgnoresStack (meaning : State → Result) : Prop :=
  ∀ (s : State) (k : AddrStack), meaning { s with stk := k } = mapNext (fun t => { t with stk := k }) (meaning s)

/-- A meaning that uses the memory operand: the read is of memory, and no stop depends on the stack. -/
theorem ignoresStack_readM {f : Byte → State → State}
    (hf : ∀ v (s : State) k, f v { s with stk := k } = { f v s with stk := k }) :
    IgnoresStack fun s => orFault (readM s) fun (v, s1) => .next (f v s1) := by
  intro s k
  cases e : readByte s (maddr s) with
  | error stop =>
    have r : readM s = .error stop := MemoryCycles.memRead_of_error e
    have rk : readM { s with stk := k } = .error stop := MemoryCycles.memRead_of_error e
    simp only [r, rk, orFault_error, mapNext]
  | ok b =>
    have r : readM s = .ok (b, s.log (.pcr (maddr s) b)) := MemoryCycles.memRead_of_ok e
    have rk : readM { s with stk := k } = .ok (b, { s.log (.pcr (maddr s) b) with stk := k }) :=
      MemoryCycles.memRead_of_ok e
    simp only [r, rk, orFault_ok, mapNext]
    exact congrArg Host.Outcome.next (hf b _ k)

theorem ignoresStack_aluMem (p : AluOp) : IgnoresStack (aluMem p) :=
  ignoresStack_readM (f := aluStep p) fun v s k => by simp only [aluStep_eq]

/-- A meaning that stores into the memory operand. -/
theorem ignoresStack_writeM (v : State → Byte) (hv : ∀ (s : State) k, v { s with stk := k } = v s) :
    IgnoresStack fun s => orFault (writeM s (v s)) .next := by
  intro s k
  by_cases h : s.params.memSize ≤ (maddr s).toNat
  · have w := MemoryCycles.memWrite_beyond h (v s)
    have wk := MemoryCycles.memWrite_beyond (s := { s with stk := k }) h (v s)
    simp only [hv, writeM, maddr_congr (s := { s with stk := k }) (t := s) rfl rfl, w, wk, orFault_error, mapNext]
  · have w := MemoryCycles.memWrite_inside (Nat.lt_of_not_le h) (v s)
    have wk := MemoryCycles.memWrite_inside (s := { s with stk := k }) (Nat.lt_of_not_le h) (v s)
    simp only [hv, writeM, maddr_congr (s := { s with stk := k }) (t := s) rfl rfl, w, wk, orFault_ok, mapNext]
    rfl

/-- A jump without stacking reads the flip-flops alone. -/
theorem ignoresStack_jumpIf (i : Bool) (cc : Cond) (t : Addr) :
    IgnoresStack fun s => jumpIf (executes i cc s) t s := by
  intro s k
  have taken : executes i cc { s with stk := k } = executes i cc s := rfl
  simp only [jumpIf, mapNext, taken]
  cases executes i cc s <;> rfl

/-- I/O CONTROL sends A out and takes an answer in (43_io.md R220, R221). -/
theorem ignoresStack_ioControl (ctl : BitVec 5) : IgnoresStack fun s => .next (ioControl ctl s) := by
  intro s k
  rcases ioControl_cases ctl s with ⟨hc, e⟩ | ⟨hc, e⟩
  · rcases ioControl_cases ctl { s with stk := k } with ⟨-, ek⟩ | ⟨hk, -⟩
    · simp only [e, ek, mapNext]
      rfl
    · exact absurd hc hk
  · rcases ioControl_cases ctl { s with stk := k } with ⟨hk, -⟩ | ⟨-, ek⟩
    · exact absurd hk hc
    · simp only [e, ek, mapNext]
      rfl

theorem ignoresStack_exec {i : Instr} (push : mayPush i = false) (ret : isReturn i = false) :
    IgnoresStack (exec i) := by
  cases i with
  | moveRM dst => exact ignoresStack_readM (f := fun v s => s.setReg dst v) fun _ _ _ => rfl
  | moveMR src => exact ignoresStack_writeM (fun s => s.reg src) fun _ _ => rfl
  | moviM n => exact ignoresStack_writeM (fun _ => n) fun _ _ => rfl
  | adM => exact ignoresStack_aluMem .ad
  | acM => exact ignoresStack_aluMem .ac
  | suM => exact ignoresStack_aluMem .su
  | sbM => exact ignoresStack_aluMem .sb
  | ndM => exact ignoresStack_aluMem .nd
  | xrM => exact ignoresStack_aluMem .xr
  | orM => exact ignoresStack_aluMem .or
  | cpM => exact ignoresStack_aluMem .cp
  | jfc t => exact ignoresStack_jumpIf false .carry t
  | jfz t => exact ignoresStack_jumpIf false .zero t
  | jfs t => exact ignoresStack_jumpIf false .sign t
  | jfp t => exact ignoresStack_jumpIf false .parity t
  | jtc t => exact ignoresStack_jumpIf true .carry t
  | jtz t => exact ignoresStack_jumpIf true .zero t
  | jts t => exact ignoresStack_jumpIf true .sign t
  | jtp t => exact ignoresStack_jumpIf true .parity t
  | inp m => exact ignoresStack_ioControl _
  | io r m => exact ignoresStack_ioControl _
  | call _ | cfc _ | cfz _ | cfs _ | cfp _ | ctc _ | ctz _ | cts _ | ctp _ | rst _ => cases push
  | rfc | rfz | rfs | rfp | rtc | rtz | rts | rtp => cases ret
  | halt | haltFF | moveRR _ _ | moviR _ _ | shl | shr | jmp _
  | adS _ | adI _ | acS _ | acI _ | suS _ | suI _ | sbS _ | sbI _
  | ndS _ | ndI _ | xrS _ | xrI _ | orS _ | orI _ | cpS _ | cpI _
  | unassigned0 _ | unassigned1 _ | unassigned2 _ | unassigned3 _ => exact fun _ _ => rfl

/-- Settles O25. -/
theorem stackIsPrivateToCallsAndReturns : Obligations.StackIsPrivateToCallsAndReturns := by
  refine fun i s k push ret => ⟨ignoresStack_exec push ret s k, fun t h => ?_⟩
  rcases Frames.exec_stk h with (pushes | pops) | kept
  · rw [push] at pushes
    cases pushes
  · rw [ret] at pops
    cases pops
  · exact kept

end Sys2Proof.Proofs.StackPrivate
end

section
/-! PROOFS. What every step keeps, and what a run's history says of memory (20_memory.md sections 1, 3 and 4), the run
condition, and the writers of the program counter (10_state.md sections 3 and 6). -/

namespace Sys2Proof.Proofs.EveryStep

open Sys2Proof.Machine Sys2Proof.Proofs.Frames

variable {s t u : State} {i : Instr}

/-! ### The memory invariant -/

/-- Settles O18. -/
theorem resetMemoryInvariant : Obligations.ResetMemoryInvariant :=
  ⟨reset_mem_wf, fun _ hc => absurd hc List.not_mem_nil⟩

theorem memoryInv_congr (h : s.memoryInv) (mem : t.mem = s.mem) (params : t.params = s.params) : t.memoryInv := by
  unfold State.memoryInv
  rw [mem, params]
  exact h

/-- A store into implemented memory keeps the invariant (20_memory.md R60, R75). -/
theorem memoryInv_of_store (h : s.memoryInv) {a : Addr} {v : Byte} (room : a.toNat < s.params.memSize)
    (mem : t.mem = s.mem.store a.toNat v) (params : t.params = s.params) : t.memoryInv := by
  obtain ⟨wf, inside⟩ := h
  unfold State.memoryInv
  rw [mem, params]
  refine ⟨Memory.store_wf wf a.toNat v, fun c hc => ?_⟩
  rcases Memory.mem_store hc with rfl | old
  · exact ⟨room, a.isLt⟩
  · exact inside c old

theorem memoryInv_exec (h : s.memoryInv) (e : exec i s = .next t) : t.memoryInv := by
  rcases exec_mem e with mem | ⟨-, room, v, mem⟩
  · exact memoryInv_congr h mem (exec_params e)
  · exact memoryInv_of_store h room mem (exec_params e)

/-- Settles O19: the fetch leaves memory alone, and a meaning stores at most into implemented memory. -/
theorem stepKeepsMemoryInvariant : Obligations.StepKeepsMemoryInvariant := by
  intro s t h e
  rcases step_next e with ⟨-, -, rfl⟩ | ⟨i, u, fetched, meaning⟩
  · exact h
  · obtain ⟨-, new, pc, ir, after, -⟩ := nextInstr_instr fetched
    have fetch : u.memoryInv := memoryInv_congr h (by rw [after]) (by rw [after])
    exact memoryInv_exec fetch meaning

/-! ### The history of a step and of a run -/

theorem explains_trans {f : Bool} {n1 n2 : List BusCycle} (h1 : Explains f n1 s t) (h2 : Explains f n2 t u) :
    Explains f (n2 ++ n1) s u where
  bus := by rw [h2.bus, h1.bus, List.append_assoc]
  mem := by rw [h2.mem, h1.mem, replay_append]
  reads := (readsExplained_append ..).mpr ⟨h1.mem ▸ h2.reads, h1.reads⟩

theorem explains_mono {f g : Bool} {new : List BusCycle} (hfg : g = true → f = true) (h : Explains f new s t) :
    Explains g new s t :=
  ⟨h.bus, h.mem, readsExplained_mono hfg h.reads⟩

/-- Everything a step says of the history, the parameters and the moves that remain. -/
structure StepRecord (s t : State) (new : List BusCycle) : Prop where
  explains : Explains s.noRequest new s t
  params : t.params = s.params
  intMoves : t.intMoves = s.intMoves.tail
  busy : s.run = .running ∨ s.noRequest = false → new ≠ []

theorem step_record (h : step s = .next t) : ∃ new, StepRecord s t new := by
  rcases step_next h with ⟨stopped, quiet, rfl⟩ | ⟨i, u, fetched, meaning⟩
  · refine ⟨[], ⟨rfl, rfl, trivial⟩, rfl, rfl, fun busy => ?_⟩
    simp [stopped, quiet] at busy
  · obtain ⟨-, new, pc, ir, after, nonempty, fetch, -⟩ := nextInstr_instr fetched
    obtain ⟨added, ⟨explained, -, -⟩⟩ := exec_addedCycles meaning
    obtain ⟨-, -, moves, params, -⟩ := otherStateFrame _ _ _ meaning
    have first : Explains s.noRequest new s u := ⟨by rw [after], by rw [after, fetch.quiet], fetch.reads⟩
    refine ⟨added ++ new, explains_trans first (explains_mono (fun _ => rfl) explained), ?_, ?_, fun _ => ?_⟩
    · rw [params, after]
    · rw [moves, after]
    · simp [nonempty]

/-- Settles O20. -/
theorem stepKeepsParameters : Obligations.StepKeepsParameters := by
  intro s t h
  obtain ⟨new, record⟩ := step_record h
  exact ⟨record.params, new, record.explains.bus, record.busy⟩

/-- Where no move of a list enables INT, INT is not enabled at the first boundary, nor by the moves after it (log 5). -/
theorem noRequest_of_all (h : s.intMoves.all Option.isNone = true) :
    s.noRequest = true ∧ s.intMoves.tail.all Option.isNone = true := by
  rw [noRequest_eq]
  cases e : s.intMoves with
  | nil => exact ⟨rfl, rfl⟩
  | cons m moves => simpa [e] using h

/-- A run of `k + 1` steps is a step and a run of `k`. -/
theorem run_succ {M : Host.Core} {k : Nat} {s t : M.State} (h : M.run (k + 1) s = .next t) :
    ∃ s1, M.step s = .next s1 ∧ M.run k s1 = .next t := by
  rw [Host.Core.run] at h
  split at h
  · exact ⟨_, ‹_›, h⟩
  · cases h
  · cases h

/-- A run explains its memory, by induction on the number of steps. -/
theorem run_explains (k : Nat) : ∀ {s t : State}, Host.Core.run Sys2Proof.core k s = .next t →
    ∃ new, Explains (s.intMoves.all Option.isNone) new s t := by
  induction k with
  | zero =>
    intro s t h
    cases h
    exact ⟨[], rfl, rfl, trivial⟩
  | succ k ih =>
    intro s t h
    obtain ⟨s1, h1, h2⟩ := run_succ (M := Sys2Proof.core) h
    obtain ⟨first, record⟩ := step_record h1
    obtain ⟨later, rest⟩ := ih h2
    refine ⟨later ++ first, explains_trans (explains_mono (fun all => ?_) record.explains)
      (explains_mono (fun all => ?_) rest)⟩
    · exact (noRequest_of_all all).1
    · rw [record.intMoves]
      exact (noRequest_of_all all).2

/-- Settles O21. -/
theorem historyExplainsMemory : Obligations.HistoryExplainsMemory := by
  intro k s t h
  obtain ⟨new, bus, mem, reads⟩ := run_explains k h
  exact ⟨new, bus, mem, reads⟩

/-! ### The run condition -/

/-- A STOPPED CPU to which no request is made idles (60_exceptions.md R234; log 36). -/
theorem step_of_stopped (stopped : s.run = .stopped) (quiet : s.noRequest = true) :
    step s = .next { s with intMoves := s.intMoves.tail } := by
  have none : s.intMoves.headD none = none := Option.isNone_iff_eq_none.mp (noRequest_eq s ▸ quiet)
  simp only [step, nextInstr, sampleInt_eq, none, stopped]

/-- Settles O12: only HALT's meaning writes the run condition, and only a request starts a STOPPED CPU. -/
theorem runConditionChanges : Obligations.RunConditionChanges := by
  refine ⟨fun s t h => ⟨fun running stopped => ?_, fun stopped running => ?_, fun running quiet => ?_⟩,
    fun s => step_of_stopped⟩
  · rcases step_next h with ⟨idle, -⟩ | ⟨i, u, fetched, meaning⟩
    · simp [running] at idle
    · refine ⟨i, u, fetched, ?_⟩
      obtain ⟨-, new, pc, ir, rfl, -⟩ := nextInstr_instr fetched
      obtain ⟨-, -, -, -, kept, -⟩ := otherStateFrame _ _ _ meaning
      by_contra other
      obtain ⟨first, second⟩ := not_or.mp other
      simp [kept first second] at stopped
  · rcases step_next h with ⟨-, -, rfl⟩ | ⟨i, u, fetched, -⟩
    · simp [stopped] at running
    · obtain ⟨started | request, -⟩ := nextInstr_instr fetched
      · simp [stopped] at started
      · exact request
  · rcases step_next h with ⟨idle, -⟩ | ⟨i, u, fetched, meaning⟩
    · simp [running] at idle
    · refine ⟨i, u, fetched, meaning, ?_⟩
      obtain ⟨-, new, pc, ir, rfl, -, -, first⟩ := nextInstr_instr fetched
      exact ⟨rfl, first quiet⟩

/-! ### The writers of the program counter -/

/-- After an interrupt fetch `pc` has moved for the later bytes only (60_exceptions.md R233, R235). -/
theorem fetchInserted_pc {ins : Insertion} (h : fetchInserted ins s = .instr i u) :
    ∃ later, u.bus = later ++ .pci s.pc u.ir true :: s.bus ∧
      LaterBytes u.ir s.params.intOperandAdvance s.pc later u.pc := by
  unfold fetchInserted at h
  split at h
  · cases h
  · rename_i b1 s1 fetched
    obtain ⟨-, rfl⟩ := fetchByte_ok fetched
    obtain ⟨later, pc, rfl, -, bytes⟩ := fetchRest_instr h
    exact ⟨later, rfl, bytes⟩

/-- After a fetch from memory `pc` is past all the bytes (10_state.md R27). -/
theorem fetchFromMemory_pc (h : fetchFromMemory s = .instr i u) : u.pc = s.pc + BitVec.ofNat 14 (lengthOf u.ir) := by
  unfold fetchFromMemory at h
  split at h
  · cases h
  · rename_i b1 s1 fetched
    obtain ⟨-, rfl⟩ := fetchByte_ok fetched
    obtain ⟨later, pc, rfl, -, count, -, last⟩ := fetchRest_instr h
    show pc = s.pc + BitVec.ofNat 14 (lengthOf b1)
    rw [last, ← count, Nat.add_comm, BitVec.ofNat_add, ← BitVec.add_assoc]
    rfl

/-- Settles O16. -/
theorem programCounterWriters : Obligations.ProgramCounterWriters := by
  refine ⟨fun i s t h moved => ?_, fun drive s t b h => ?_, fun s u i ins moves request h => ?_,
    fun s u i quiet h => ?_⟩
  · exact (exec_pc h).resolve_right moved
  · obtain ⟨-, rfl⟩ := fetchByte_ok h
    rfl
  · rw [nextInstr_request request] at h
    obtain ⟨later, bus, count, first, last⟩ := fetchInserted_pc h
    exact ⟨later, bus, count, first, last⟩
  · obtain ⟨running | request, -⟩ := nextInstr_instr h
    · rw [MemoryFetch.nextInstr_running running quiet] at h
      exact fetchFromMemory_pc (s := { s with intMoves := s.intMoves.tail }) h
    · rw [quiet] at request
      cases request

end Sys2Proof.Proofs.EveryStep
end

section
/-! PROOFS. The eight operations and the shifts (41_arithmetic.md). -/

namespace Sys2Proof.Proofs.Arithmetic

open Sys2Proof.Machine

/-! ### The flip-flops of a 9-bit `t` (R151) -/

/-- Counting modulo 2 is exclusive-or. -/
theorem odd_filter_length {α : Type} (f : α → Bool) (l : List α) :
    decide ((l.filter f).length % 2 = 1) = l.foldr (fun x odd => odd ^^ f x) false := by
  induction l with
  | nil => rfl
  | cons x l ih =>
    rw [List.foldr_cons, ← ih]
    cases hx : f x with
    | false => simp [hx]
    | true =>
      simp only [List.filter_cons, hx, if_true, List.length_cons, Bool.xor_true]
      by_cases odd : (l.filter f).length % 2 = 1
      · simp [odd, show ¬ ((l.filter f).length + 1) % 2 = 1 by omega]
      · simp [odd, show ((l.filter f).length + 1) % 2 = 1 by omega]

/-- PARITY is 1 for an odd number of ones. -/
theorem oddParity_eq (r : Byte) : oddParity r = decide (oneBits r % 2 = 1) := by
  unfold oneBits
  rw [odd_filter_length]
  simp [List.range, List.range.loop, oddParity]

theorem getLsbD_last_eq {n : Nat} (x : BitVec (n + 1)) : x.getLsbD n = decide (2 ^ n ≤ x.toNat) := by
  have h := BitVec.msb_eq_decide x
  rwa [BitVec.msb_eq_getLsbD_last] at h

theorem extractLsb'_low (t : BitVec 9) : t.extractLsb' 0 8 = BitVec.ofNat 8 t.toNat := by
  apply BitVec.eq_of_toNat_eq
  simp

/-- The flip-flops describe the low eight bits, with bit 8 as the carry. -/
theorem flagsOf_eq (t : BitVec 9) : flagsOf t = resultFlags (BitVec.ofNat 8 t.toNat) (decide (256 ≤ t.toNat)) := by
  have carry := getLsbD_last_eq t
  have sign := getLsbD_last_eq (BitVec.ofNat 8 t.toNat)
  have zero : (BitVec.ofNat 8 t.toNat == 0) = decide ((BitVec.ofNat 8 t.toNat).toNat = 0) := by
    rw [Bool.eq_iff_iff, beq_iff_eq, decide_eq_true_iff, ← BitVec.toNat_inj]
    rfl
  simp only [flagsOf, extractLsb'_low, resultFlags, zero, oddParity_eq]
  rw [carry, sign]
  rfl

/-! ### The 9-bit `t` of each operation (R151) -/

section
variable (a v : Byte) (cin : Bool)

theorem toNat_wide (x : Byte) : (x.zeroExtend 9).toNat = x.toNat := by
  have := x.isLt
  rw [BitVec.toNat_setWidth]
  omega

theorem toNat_carry : ((BitVec.ofBool cin).zeroExtend 9).toNat = cin.toNat := by
  cases cin <;> rfl

theorem aluWide_ad : (aluWide .ad a v cin).toNat = a.toNat + v.toNat := by
  have := a.isLt
  have := v.isLt
  simp only [aluWide, BitVec.toNat_add, toNat_wide]
  omega

theorem aluWide_ac : (aluWide .ac a v cin).toNat = a.toNat + v.toNat + cin.toNat := by
  have := a.isLt
  have := v.isLt
  have := cin.toNat_le
  simp only [aluWide, BitVec.toNat_add, toNat_wide, toNat_carry]
  omega

theorem aluWide_su : (aluWide .su a v cin).toNat = (512 + a.toNat - v.toNat) % 512 := by
  have := v.isLt
  simp only [aluWide, BitVec.toNat_sub, toNat_wide]
  omega

/-- The compare forms the same difference (R159). -/
theorem aluWide_cp : (aluWide .cp a v cin).toNat = (512 + a.toNat - v.toNat) % 512 := aluWide_su a v cin

theorem aluWide_sb : (aluWide .sb a v cin).toNat = (512 + a.toNat - v.toNat - cin.toNat) % 512 := by
  have := v.isLt
  have := cin.toNat_le
  simp only [aluWide, BitVec.toNat_sub, toNat_wide, toNat_carry]
  omega

theorem aluWide_nd : (aluWide .nd a v cin).toNat = (a &&& v).toNat := toNat_wide _

theorem aluWide_xr : (aluWide .xr a v cin).toNat = (a ^^^ v).toNat := toNat_wide _

theorem aluWide_or : (aluWide .or a v cin).toNat = (a ||| v).toNat := toNat_wide _

end

/-! ### The new state of each operation -/

section
variable {p : AluOp} {v r : Byte} {c : Bool} {s : State}

theorem aluStep_withResult (keeps : keepsResult p = true)
    (result : BitVec.ofNat 8 (aluWide p s.regs.a v s.flags.c).toNat = r)
    (carry : decide (256 ≤ (aluWide p s.regs.a v s.flags.c).toNat) = c) : aluStep p v s = s.withResult r c := by
  rw [aluStep_eq, keeps, flagsOf_eq, extractLsb'_low, result, carry]
  rfl

theorem aluStep_withCompare (result : BitVec.ofNat 8 (aluWide .cp s.regs.a v s.flags.c).toNat = r)
    (carry : decide (256 ≤ (aluWide .cp s.regs.a v s.flags.c).toNat) = c) : aluStep .cp v s = s.withCompare r c := by
  rw [aluStep_eq, flagsOf_eq, result, carry]
  rfl

end

/-- Subtraction modulo 256 is what the low eight bits of the 9-bit difference hold (R154). -/
theorem ofNat_difference (a v : Byte) : BitVec.ofNat 8 ((512 + a.toNat - v.toNat) % 512) = a - v := by
  have := v.isLt
  apply BitVec.eq_of_toNat_eq
  rw [BitVec.toNat_ofNat, BitVec.toNat_sub]
  omega

/-- Bit 8 of the 9-bit difference is the borrow (R154). -/
theorem borrow_iff (a v : Byte) : 256 ≤ (512 + a.toNat - v.toNat) % 512 ↔ a.toNat < v.toNat := by
  have := a.isLt
  have := v.isLt
  omega

/-- The same with a borrow coming in, over the integers (R155). -/
theorem ofNat_difference_borrow (a v : Byte) (c : Bool) :
    BitVec.ofNat 8 ((512 + a.toNat - v.toNat - c.toNat) % 512) = BitVec.ofInt 8 (a.toNat - v.toNat - c.toNat) := by
  have := v.isLt
  have := c.toNat_le
  apply BitVec.eq_of_toNat_eq
  rw [BitVec.toNat_ofNat, BitVec.toNat_ofInt]
  omega

theorem borrow_borrow_iff (a v : Byte) (c : Bool) :
    256 ≤ (512 + a.toNat - v.toNat - c.toNat) % 512 ↔ a.toNat < v.toNat + c.toNat := by
  have := a.isLt
  have := v.isLt
  have := c.toNat_le
  omega

/-- A byte has no bit 8. -/
theorem no_carry (x : Byte) : decide (256 ≤ x.toNat) = false :=
  decide_eq_false (Nat.not_le.mpr x.isLt)

section
variable (s : State) (v : Byte)

theorem aluStep_ad :
    aluStep .ad v s = s.withResult (s.regs.a + v) (decide (255 < s.regs.a.toNat + v.toNat)) :=
  aluStep_withResult rfl (by rw [aluWide_ad, BitVec.ofNat_add, BitVec.ofNat_toNat, BitVec.ofNat_toNat]; simp)
    (by rw [aluWide_ad]; rfl)

theorem aluStep_ac : aluStep .ac v s = s.withResult (BitVec.ofNat 8 (s.regs.a.toNat + v.toNat + s.flags.c.toNat))
    (decide (255 < s.regs.a.toNat + v.toNat + s.flags.c.toNat)) :=
  aluStep_withResult rfl (by rw [aluWide_ac]) (by rw [aluWide_ac]; rfl)

theorem aluStep_su : aluStep .su v s = s.withResult (s.regs.a - v) (decide (s.regs.a.toNat < v.toNat)) :=
  aluStep_withResult rfl (by rw [aluWide_su, ofNat_difference])
    (by rw [aluWide_su]; exact decide_eq_decide.mpr (borrow_iff _ _))

theorem aluStep_sb :
    aluStep .sb v s = s.withResult (BitVec.ofInt 8 (s.regs.a.toNat - v.toNat - s.flags.c.toNat))
      (decide (s.regs.a.toNat < v.toNat + s.flags.c.toNat)) :=
  aluStep_withResult rfl (by rw [aluWide_sb, ofNat_difference_borrow])
    (by rw [aluWide_sb]; exact decide_eq_decide.mpr (borrow_borrow_iff _ _ _))

theorem aluStep_nd : aluStep .nd v s = s.withResult (s.regs.a &&& v) false :=
  aluStep_withResult rfl (by rw [aluWide_nd]; simp) (by rw [aluWide_nd, no_carry])

theorem aluStep_xr : aluStep .xr v s = s.withResult (s.regs.a ^^^ v) false :=
  aluStep_withResult rfl (by rw [aluWide_xr]; simp) (by rw [aluWide_xr, no_carry])

theorem aluStep_or : aluStep .or v s = s.withResult (s.regs.a ||| v) false :=
  aluStep_withResult rfl (by rw [aluWide_or]; simp) (by rw [aluWide_or, no_carry])

theorem aluStep_cp : aluStep .cp v s = s.withCompare (s.regs.a - v) (decide (s.regs.a.toNat < v.toNat)) :=
  aluStep_withCompare (by rw [aluWide_cp, ofNat_difference])
    (by rw [aluWide_cp]; exact decide_eq_decide.mpr (borrow_iff _ _))

end

/-! ### The three forms -/

/-- An operation's forms differ only in where the operand comes from (R150). -/
theorem operationForms_of_aluStep (p : AluOp) {reg : Reg → Instr} {memory : Instr} {immediate : Byte → Instr}
    {res : State → Byte → State} (hreg : ∀ r s, exec (reg r) s = aluReg p r s)
    (hmem : ∀ s, exec memory s = aluMem p s) (himm : ∀ n s, exec (immediate n) s = aluImm p n s)
    (hres : ∀ s v, aluStep p v s = res s v) : OperationForms reg memory immediate res := by
  refine fun s => ⟨fun r => ?_, fun n => ?_, fun b hb => ?_, fun f hf => ?_⟩
  · rw [hreg, aluReg, hres, State.reg_eq]
  · rw [himm, aluImm, hres]
  · rw [hmem, aluMem, readM, MemoryCycles.memRead_of_ok hb, orFault_ok]
    exact congrArg Host.Outcome.next (hres _ b)
  · rw [hmem, aluMem, readM, MemoryCycles.memRead_of_error hf, orFault_error]

/-- Settles O33. -/
theorem addForms : Obligations.AddForms :=
  operationForms_of_aluStep .ad (fun _ _ => rfl) (fun _ => rfl) (fun _ _ => rfl) aluStep_ad

/-- Settles O34. -/
theorem addWithCarryForms : Obligations.AddWithCarryForms :=
  operationForms_of_aluStep .ac (fun _ _ => rfl) (fun _ => rfl) (fun _ _ => rfl) aluStep_ac

/-- Settles O35. -/
theorem subtractForms : Obligations.SubtractForms :=
  operationForms_of_aluStep .su (fun _ _ => rfl) (fun _ => rfl) (fun _ _ => rfl) aluStep_su

/-- Settles O36. -/
theorem subtractWithCarryForms : Obligations.SubtractWithCarryForms :=
  operationForms_of_aluStep .sb (fun _ _ => rfl) (fun _ => rfl) (fun _ _ => rfl) aluStep_sb

/-- Settles O37. -/
theorem andForms : Obligations.AndForms :=
  operationForms_of_aluStep .nd (fun _ _ => rfl) (fun _ => rfl) (fun _ _ => rfl) aluStep_nd

/-- Settles O38. -/
theorem exclusiveOrForms : Obligations.ExclusiveOrForms :=
  operationForms_of_aluStep .xr (fun _ _ => rfl) (fun _ => rfl) (fun _ _ => rfl) aluStep_xr

/-- Settles O39. -/
theorem inclusiveOrForms : Obligations.InclusiveOrForms :=
  operationForms_of_aluStep .or (fun _ _ => rfl) (fun _ => rfl) (fun _ _ => rfl) aluStep_or

/-- Settles O40. -/
theorem compareForms : Obligations.CompareForms :=
  operationForms_of_aluStep .cp (fun _ _ => rfl) (fun _ => rfl) (fun _ _ => rfl) aluStep_cp

/-! ### Sixteen bits by two operations (R163) -/

theorem toNat_decide_eq (P : Prop) [Decidable P] : (decide P).toNat = if P then 1 else 0 := by
  by_cases h : P <;> simp [h]

/-- The carry of the low bytes' sum is added to that of the high bytes. -/
theorem add_sixteen (a h m n : Byte) (c : Bool) (hc : c = decide (255 < a.toNat + n.toNat)) :
    (decide (255 < h.toNat + m.toNat + c.toNat)).toNat * 65536 +
        (BitVec.ofNat 8 (h.toNat + m.toNat + c.toNat)).toNat * 256 + (a + n).toNat =
      (h.toNat * 256 + a.toNat) + (m.toNat * 256 + n.toNat) := by
  have := h.isLt
  have := m.isLt
  subst hc
  simp only [toNat_decide_eq, BitVec.toNat_ofNat, BitVec.toNat_add]
  split <;> split <;> omega

/-- The borrow of the low bytes' difference is taken from that of the high bytes. -/
theorem sub_sixteen (a h m n : Byte) (c : Bool) (hc : c = decide (a.toNat < n.toNat)) :
    (BitVec.ofInt 8 (h.toNat - m.toNat - c.toNat)).toNat * 256 + (a - n).toNat + (m.toNat * 256 + n.toNat) =
      (h.toNat * 256 + a.toNat) + (decide (h.toNat < m.toNat + c.toNat)).toNat * 65536 := by
  have := h.isLt
  have := m.isLt
  have := a.isLt
  have := n.isLt
  subst hc
  simp only [toNat_decide_eq, BitVec.toNat_ofInt, BitVec.toNat_sub]
  split <;> split <;> omega

/-- Settles O41: the carry flip-flop of the first operation goes into the second. -/
theorem multiByteArithmetic : Obligations.MultiByteArithmetic := by
  intro s h m n
  obtain ⟨-, adI, -⟩ := addForms s
  obtain ⟨-, acI, -⟩ := addWithCarryForms
    { s.withResult (s.regs.a + n) (decide (255 < s.regs.a.toNat + n.toNat)) with regs := { s.regs with a := h } }
  obtain ⟨-, suI, -⟩ := subtractForms s
  obtain ⟨-, sbI, -⟩ := subtractWithCarryForms
    { s.withResult (s.regs.a - n) (decide (s.regs.a.toNat < n.toNat)) with regs := { s.regs with a := h } }
  exact ⟨⟨_, _, adI n, acI m, add_sixteen s.regs.a h m n _ rfl⟩,
    ⟨_, _, suI n, sbI m, sub_sixteen s.regs.a h m n _ rfl⟩⟩

/-! ### The shifts (R160, R161) -/

/-- One place to the left: A doubled, bit 7 brought round to bit 0 (R160). -/
theorem rotateOnce_left (a : Byte) : (rotateOnce false a).1.toNat = 2 * a.toNat % 256 + a.toNat / 128 ∧
    (rotateOnce false a).2 = decide (128 ≤ a.toNat) := by
  have := a.isLt
  refine ⟨(OpcodeTable.toNat_append_eq _ _).trans ?_, getLsbD_last_eq a⟩
  simp only [BitVec.extractLsb'_toNat, Nat.shiftRight_eq_div_pow]
  omega

/-- One place to the right: A halved, bit 0 brought round to bit 7 (R161). -/
theorem rotateOnce_right (a : Byte) : (rotateOnce true a).1.toNat = a.toNat / 2 + 128 * (a.toNat % 2) ∧
    (rotateOnce true a).2 = decide (a.toNat % 2 = 1) := by
  have := a.isLt
  refine ⟨(OpcodeTable.toNat_append_eq _ _).trans ?_, ?_⟩
  · simp only [BitVec.extractLsb'_toNat, Nat.shiftRight_eq_div_pow]
    omega
  · exact (Nat.testBit_zero a.toNat)

theorem shiftStep_circular {s : State} (h : s.params.shiftKind = .circular) (right : Bool) :
    shiftStep right s = { s with
      regs := { s.regs with a := (rotateOnce right s.regs.a).1 }
      flags := { s.flags with c := (rotateOnce right s.regs.a).2 } } := by
  simp [shiftStep, h, State.setReg]

theorem shiftStep_other {s : State} (h : s.params.shiftKind = .other) (right : Bool) :
    shiftStep right s = { s with
      regs := { s.regs with a := (Config.otherShift right s.regs.a s.flags.c).1 }
      flags := { s.flags with c := (Config.otherShift right s.regs.a s.flags.c).2 } } := by
  simp [shiftStep, h, State.setReg]

theorem exec_shift (right : Bool) (s : State) : exec (if right then .shr else .shl) s = .next (shiftStep right s) := by
  cases right <;> rfl

/-- Settles O42. -/
theorem shiftForms : Obligations.ShiftForms := by
  refine fun s => ⟨fun circular => ⟨?_, ?_⟩, fun other right => ?_⟩
  · obtain ⟨value, carry⟩ := rotateOnce_left s.regs.a
    refine ⟨_, value, ?_⟩
    rw [← carry, ← shiftStep_circular circular]
    exact exec_shift false s
  · obtain ⟨value, carry⟩ := rotateOnce_right s.regs.a
    refine ⟨_, value, ?_⟩
    rw [← carry, ← shiftStep_circular circular]
    exact exec_shift true s
  · rw [exec_shift, shiftStep_other other]

/-- A place to the left, bit by bit: each bit comes from the one below it, bit 0 from bit 7. -/
theorem getLsbD_rotateOnce_left (a : Byte) {i : Nat} (hi : i < 8) :
    (rotateOnce false a).1.getLsbD i = a.getLsbD ((i + 7) % 8) := by
  refine BitVec.getLsbD_append.trans ?_
  by_cases low : i < 1
  · obtain rfl : i = 0 := by omega
    simp
  · simp [low, show i - 1 < 7 by omega, show (i + 7) % 8 = i - 1 by omega]

/-- A place to the right: each bit comes from the one above it, bit 7 from bit 0. -/
theorem getLsbD_rotateOnce_right (a : Byte) {i : Nat} (hi : i < 8) :
    (rotateOnce true a).1.getLsbD i = a.getLsbD ((i + 1) % 8) := by
  refine BitVec.getLsbD_append.trans ?_
  by_cases low : i < 7
  · simp [low, show (i + 1) % 8 = 1 + i by omega]
  · obtain rfl : i = 7 := by omega
    simp

/-- A place to the right undoes a place to the left, and the bit moved last is the bit moved first. -/
theorem rotateOnce_right_left (a : Byte) :
    (rotateOnce true (rotateOnce false a).1).1 = a ∧ (rotateOnce true (rotateOnce false a).1).2 = a.getLsbD 7 := by
  refine ⟨BitVec.eq_of_getLsbD_eq fun i hi => ?_, getLsbD_rotateOnce_left a (by decide)⟩
  rw [getLsbD_rotateOnce_right _ hi, getLsbD_rotateOnce_left _ (Nat.mod_lt _ (by decide))]
  congr 1
  omega

/-- `n` shifts to the left. -/
def shiftLeftTimes : Nat → State → State
  | 0, s => s
  | n + 1, s => shiftStep false (shiftLeftTimes n s)

/-- After `n` shifts each bit of A is the one `n` places below it, round the byte, and nothing but A and the carry
flip-flop has changed. -/
theorem shiftLeftTimes_circular {s : State} (h : s.params.shiftKind = .circular) (n : Nat) :
    (shiftLeftTimes n s).params = s.params ∧
      ∃ a : Byte, (shiftLeftTimes n s).regs = { s.regs with a := a } ∧
        ∀ i < 8, a.getLsbD i = s.regs.a.getLsbD ((i + 7 * n) % 8) := by
  induction n with
  | zero => exact ⟨rfl, s.regs.a, rfl, fun i hi => by rw [Nat.mul_zero, Nat.add_zero, Nat.mod_eq_of_lt hi]⟩
  | succ n ih =>
    obtain ⟨params, a, regs, bits⟩ := ih
    have circular : (shiftLeftTimes n s).params.shiftKind = .circular := by rw [params, h]
    simp only [shiftLeftTimes, shiftStep_circular circular]
    refine ⟨params, (rotateOnce false a).1, by rw [regs], fun i hi => ?_⟩
    rw [getLsbD_rotateOnce_left a hi, bits _ (Nat.mod_lt _ (by decide))]
    congr 1
    omega

/-- Settles O43. -/
theorem shiftsUndoEachOther : Obligations.ShiftsUndoEachOther := by
  refine fun s circular => ⟨⟨shiftStep false s, rfl, ?_⟩, ?_⟩
  · obtain ⟨undone, moved⟩ := rotateOnce_right_left s.regs.a
    have back : shiftStep true (shiftStep false s) = { s with flags := { s.flags with c := s.regs.a.getLsbD 7 } } := by
      rw [shiftStep_circular circular false, shiftStep_circular (by exact circular) true]
      simp only [undone, moved]
    exact (exec_shift true _).trans (congrArg Host.Outcome.next back)
  · refine ⟨_, _, _, _, _, _, _, shiftLeftTimes 8 s, rfl, rfl, rfl, rfl, rfl, rfl, rfl, rfl, ?_⟩
    obtain ⟨-, a, regs, bits⟩ := shiftLeftTimes_circular circular 8
    have back : a = s.regs.a := BitVec.eq_of_getLsbD_eq fun i hi => by
      rw [bits i hi]
      congr 1
      omega
    rw [regs, back]

end Sys2Proof.Proofs.Arithmetic
end

section
/-! PROOFS. The address stack (10_state.md section 4). -/

namespace Sys2Proof.Proofs.Stack

open Sys2Proof.Machine

variable {k k1 : AddrStack} {v w : Addr}

/-! ### Push and pop -/

/-- The stack after a push into a free word. -/
def pushed (k : AddrStack) (v : Addr) (free : k.sp.val < 7) : AddrStack :=
  { words := k.words.set k.sp.val v free, sp := ⟨k.sp.val + 1, Nat.succ_lt_succ free⟩ }

/-- The stack after a push that discards the oldest word. -/
def displaced (k : AddrStack) (v : Addr) : AddrStack :=
  { k with words := #v[k.words[1], k.words[2], k.words[3], k.words[4], k.words[5], k.words[6], v] }

/-- The stack after a pop of an outstanding address. -/
def popped (k : AddrStack) : AddrStack := { k with sp := ⟨k.sp.val - 1, by omega⟩ }

/-- The stack after a pop at depth 0: the ring has turned by one (log 14). -/
def turned (k : AddrStack) : AddrStack :=
  { k with
    words := #v[k.words[6], k.words[0], k.words[1], k.words[2], k.words[3], k.words[4], k.words[5]] }

theorem push_free (free : k.sp.val < 7) (policy : StackPolicy) (v : Addr) : k.push policy v = some (pushed k v free) :=
  dif_pos free

theorem push_full_fault (full : ¬ k.sp.val < 7) (v : Addr) : k.push .fault v = none := dif_neg full

theorem push_full_circular (full : ¬ k.sp.val < 7) (v : Addr) : k.push .circular v = some (displaced k v) :=
  dif_neg full

theorem pop_outstanding (some_left : 0 < k.sp.val) (policy : StackPolicy) :
    k.pop policy = some (k.words[k.sp.val - 1]'(by omega), popped k) := dif_pos some_left

theorem pop_empty_fault (empty : ¬ 0 < k.sp.val) : k.pop .fault = none := dif_neg empty

theorem pop_empty_circular (empty : ¬ 0 < k.sp.val) : k.pop .circular = some (k.words[6], turned k) := dif_neg empty

/-! ### The outstanding addresses -/

/-- There are never more than seven. -/
theorem live_length (k : AddrStack) : k.live.length = k.sp.val := by
  have := k.sp.isLt
  simp only [AddrStack.live, List.length_take, Vector.length_toList]
  omega

/-- The seven words, one by one. -/
theorem toList_eq (ws : Vector Addr 7) : ws.toList = [ws[0], ws[1], ws[2], ws[3], ws[4], ws[5], ws[6]] := by
  apply List.ext_getElem
  · simp
  · intro i hi _
    rw [Vector.length_toList] at hi
    rw [Vector.getElem_toList]
    interval_cases i <;> rfl

theorem pushed_live (free : k.sp.val < 7) (v : Addr) : (pushed k v free).live = k.live ++ [v] := by
  simp only [pushed, AddrStack.live, Vector.toList_set]
  rw [List.take_add_one, List.take_set_of_le (Nat.le_refl _)]
  simp [free]

theorem displaced_live (full : k.sp.val = 7) (v : Addr) : (displaced k v).live = k.live.tail ++ [v] := by
  simp only [displaced, AddrStack.live, full, toList_eq k.words]
  rfl

theorem popped_live (some_left : 0 < k.sp.val) :
    k.live = (popped k).live ++ [k.words[k.sp.val - 1]'(by omega)] := by
  obtain ⟨d, hd⟩ : ∃ d, k.sp.val = d + 1 := ⟨k.sp.val - 1, by omega⟩
  have inside : d < 7 := by omega
  simp only [popped, AddrStack.live, hd, Nat.add_sub_cancel]
  rw [List.take_add_one]
  simp [inside]

/-- Settles O52. -/
theorem stackIsLastInFirstOut : Obligations.StackIsLastInFirstOut := by
  refine fun policy k v => ⟨live_length k, fun free => ?_, fun full => ?_, fun some_left => ?_, fun empty => ?_⟩
  · exact ⟨_, push_free free policy v, pushed_live free v⟩
  · have none_free : ¬ k.sp.val < 7 := by omega
    exact ⟨push_full_fault none_free v, _, push_full_circular none_free v, displaced_live full v⟩
  · exact ⟨_, _, pop_outstanding some_left policy, popped_live some_left⟩
  · exact pop_empty_fault (by omega)

/-! ### The ring (R30, log 14) -/

/-- The seven words in the order in which pops under STACK_POLICY = circular give them. -/
def ring (k : AddrStack) : List Addr := k.live.reverse ++ (k.words.toList.drop k.sp.val).reverse

theorem ring_length (k : AddrStack) : (ring k).length = 7 := by
  have := k.sp.isLt
  simp only [ring, List.length_append, List.length_reverse, live_length, List.length_drop, Vector.length_toList]
  omega

/-- A pop gives the first word of the ring and turns the ring by one. -/
theorem pop_circular (k : AddrStack) :
    ∃ w k1 rest, k.pop .circular = some (w, k1) ∧ ring k = w :: rest ∧ ring k1 = rest ++ [w] := by
  by_cases some_left : 0 < k.sp.val
  · obtain ⟨d, hd⟩ : ∃ d, k.sp.val = d + 1 := ⟨k.sp.val - 1, by omega⟩
    have inside : d < k.words.toList.length := by simp; omega
    refine ⟨_, _, (popped k).live.reverse ++ (k.words.toList.drop k.sp.val).reverse,
      pop_outstanding some_left .circular, ?_, ?_⟩
    · rw [ring, popped_live some_left]
      simp
    · simp only [ring, popped, hd, Nat.add_sub_cancel, List.append_assoc]
      rw [List.drop_eq_getElem_cons inside]
      simp
  · have empty : k.sp.val = 0 := by omega
    refine ⟨_, _, [k.words[5], k.words[4], k.words[3], k.words[2], k.words[1], k.words[0]],
      pop_empty_circular some_left, ?_, ?_⟩
    · simp only [ring, AddrStack.live, empty, toList_eq k.words]
      rfl
    · simp only [ring, AddrStack.live, turned, empty]
      rfl

/-- The pop after `n` others gives the word `n` places on in the ring. -/
theorem popTimes_ring (n : Nat) : ∀ k : AddrStack,
    ∃ w k1, AddrStack.popTimes (n + 1) k = some (w, k1) ∧ (ring k)[n % 7]? = some w := by
  induction n with
  | zero =>
    intro k
    obtain ⟨w, k1, rest, popped, first, -⟩ := pop_circular k
    exact ⟨w, k1, popped, by rw [first]; rfl⟩
  | succ n ih =>
    intro k
    obtain ⟨u, k1, rest, popped, first, turned⟩ := pop_circular k
    obtain ⟨w, k2, later, found⟩ := ih k1
    refine ⟨w, k2, ?_, ?_⟩
    · simp only [AddrStack.popTimes, popped, later]
    · have rotated : ring k1 = (ring k).rotate 1 := by rw [turned, first, List.rotate_cons_succ, List.rotate_zero]
      have in_ring : n % 7 < (ring k).length := by rw [ring_length]; exact Nat.mod_lt _ (by decide)
      rw [rotated, List.getElem?_rotate in_ring, ring_length, Nat.mod_add_mod] at found
      exact found

theorem popTimes_of_ring {rest : List Addr} (first : ring k = v :: rest) {n : Nat} (turns : n % 7 = 0) :
    ∃ k1, AddrStack.popTimes (n + 1) k = some (v, k1) := by
  obtain ⟨w, k1, popped, found⟩ := popTimes_ring n k
  rw [turns, first] at found
  cases found
  exact ⟨k1, popped⟩

/-- The newest outstanding address is the first word of the ring. -/
theorem ring_of_live {older : List Addr} (h : k.live = older ++ [v]) : ∃ rest, ring k = v :: rest :=
  ⟨_, by rw [ring, h, List.reverse_append]; rfl⟩

/-- A push under STACK_POLICY = circular is always possible, and its address is the newest. -/
theorem push_circular (k : AddrStack) (v : Addr) :
    ∃ k1 older, k.push .circular v = some k1 ∧ k1.live = older ++ [v] := by
  by_cases free : k.sp.val < 7
  · exact ⟨_, _, push_free free .circular v, pushed_live free v⟩
  · exact ⟨_, _, push_full_circular free v, displaced_live (by omega) v⟩

/-- Settles O53: seven pops turn the ring once round. -/
theorem circularStackIsARing : Obligations.CircularStackIsARing := by
  intro k v
  obtain ⟨k1, older, push, live⟩ := push_circular k v
  obtain ⟨rest, first⟩ := ring_of_live live
  obtain ⟨k2, once⟩ := popTimes_of_ring first (n := 0) rfl
  obtain ⟨k3, eight⟩ := popTimes_of_ring first (n := 7) rfl
  exact ⟨k1, k2, k3, push, once, eight⟩

end Sys2Proof.Proofs.Stack
end

section
/-! PROOFS. The stacking jumps, the returns, RESTART and HALT (42_control.md). -/

namespace Sys2Proof.Proofs.Linkage

open Sys2Proof.Machine

/-! ### A stacking jump and a return that execute -/

section
variable {s : State}

theorem stack_push_of_canPush (room : s.canPush) (v : Addr) : ∃ k, s.stk.push s.params.stackPolicy v = some k := by
  rcases room with free | circular
  · exact ⟨_, Stack.push_free free _ v⟩
  · obtain ⟨k, -, push, -⟩ := Stack.push_circular s.stk v
    exact ⟨k, by rw [circular, push]⟩

theorem stack_push_of_not_canPush (none_free : ¬ s.canPush) (v : Addr) :
    s.stk.push s.params.stackPolicy v = none := by
  obtain ⟨full, not_circular⟩ := not_or.mp none_free
  cases policy : s.params.stackPolicy with
  | fault => exact Stack.push_full_fault full v
  | circular => exact absurd policy not_circular

theorem stack_pop_of_canPop (outstanding : s.canPop) : ∃ v k, s.stk.pop s.params.stackPolicy = some (v, k) := by
  rcases outstanding with some_left | circular
  · exact ⟨_, _, Stack.pop_outstanding some_left _⟩
  · obtain ⟨v, k, -, pop, -⟩ := Stack.pop_circular s.stk
    exact ⟨v, k, by rw [circular, pop]⟩

theorem stack_pop_of_not_canPop (none_left : ¬ s.canPop) : s.stk.pop s.params.stackPolicy = none := by
  obtain ⟨empty, not_circular⟩ := not_or.mp none_left
  cases policy : s.params.stackPolicy with
  | fault => exact Stack.pop_empty_fault empty
  | circular => exact absurd policy not_circular

/-- A stacking jump that executes (R192). -/
theorem callIf_of_push {k : AddrStack} (h : s.stk.push s.params.stackPolicy s.pc = some k) (t : Addr) :
    callIf true t s = .next { s with stk := k, pc := t } := by
  simp [callIf, push, h]

theorem callIf_of_canPush (room : s.canPush) (t : Addr) :
    ∃ k, s.stk.push s.params.stackPolicy s.pc = some k ∧ callIf true t s = .next { s with stk := k, pc := t } := by
  obtain ⟨k, hk⟩ := stack_push_of_canPush room s.pc
  exact ⟨k, hk, callIf_of_push hk t⟩

theorem callIf_of_not_canPush (none_free : ¬ s.canPush) (t : Addr) :
    callIf true t s = .fault (.stackOverflow s.iaddr) := by
  simp [callIf, push, stack_push_of_not_canPush none_free]

/-- A return that executes (R197). -/
theorem returnIf_of_pop {v : Addr} {k : AddrStack} (h : s.stk.pop s.params.stackPolicy = some (v, k)) :
    returnIf true s = .next { s with stk := k, pc := v } := by
  simp [returnIf, returnToStacked, pop, h]

theorem returnIf_of_canPop (outstanding : s.canPop) :
    ∃ v k, s.stk.pop s.params.stackPolicy = some (v, k) ∧ returnIf true s = .next { s with stk := k, pc := v } := by
  obtain ⟨v, k, hk⟩ := stack_pop_of_canPop outstanding
  exact ⟨v, k, hk, returnIf_of_pop hk⟩

theorem returnIf_of_not_canPop (none_left : ¬ s.canPop) : returnIf true s = .fault (.stackUnderflow s.iaddr) := by
  simp [returnIf, returnToStacked, pop, stack_pop_of_not_canPop none_left]

end

/-! ### The forms -/

theorem callForm_of_callIf {jump : Addr → Instr} {taken : State → Bool}
    (h : ∀ t s, exec (jump t) s = callIf (taken s) t s) : CallForm jump taken := by
  refine fun s t => ⟨fun is_taken room => ?_, fun is_taken none_free => ?_, fun not_taken => ?_⟩
  · rw [h, is_taken]
    exact callIf_of_canPush room t
  · rw [h, is_taken]
    exact callIf_of_not_canPush none_free t
  · rw [h, not_taken]
    rfl

theorem returnForm_of_returnIf {i : Instr} {taken : State → Bool} (h : ∀ s, exec i s = returnIf (taken s) s) :
    ReturnForm i taken := by
  refine fun s => ⟨fun is_taken outstanding => ?_, fun is_taken none_left => ?_, fun not_taken => ?_⟩
  · rw [h, is_taken]
    exact returnIf_of_canPop outstanding
  · rw [h, is_taken]
    exact returnIf_of_not_canPop none_left
  · rw [h, not_taken]
    rfl

/-- Settles O48. -/
theorem callIfFalse : Obligations.CallIfFalse :=
  ⟨callForm_of_callIf fun _ _ => rfl, callForm_of_callIf fun _ _ => rfl, callForm_of_callIf fun _ _ => rfl,
    callForm_of_callIf fun _ _ => rfl⟩

/-- Settles O49. -/
theorem callIfTrue : Obligations.CallIfTrue :=
  ⟨callForm_of_callIf fun _ _ => rfl, callForm_of_callIf fun _ _ => rfl, callForm_of_callIf fun _ _ => rfl,
    callForm_of_callIf fun _ _ => rfl⟩

/-- Settles O50. -/
theorem returnIfFalse : Obligations.ReturnIfFalse :=
  ⟨returnForm_of_returnIf fun _ => rfl, returnForm_of_returnIf fun _ => rfl, returnForm_of_returnIf fun _ => rfl,
    returnForm_of_returnIf fun _ => rfl⟩

/-- Settles O51. -/
theorem returnIfTrue : Obligations.ReturnIfTrue :=
  ⟨returnForm_of_returnIf fun _ => rfl, returnForm_of_returnIf fun _ => rfl, returnForm_of_returnIf fun _ => rfl,
    returnForm_of_returnIf fun _ => rfl⟩

/-! ### CALL -/

theorem exec_call (t : Addr) (s : State) : exec (.call t) s = callIf true t s := rfl

/-- CALL with a free word adds `pc` as the newest outstanding address (R192). -/
theorem exec_call_free {s : State} (free : s.stk.sp.val < 7) (t : Addr) :
    exec (.call t) s = .next { s with stk := Stack.pushed s.stk s.pc free, pc := t } :=
  callIf_of_push (Stack.push_free free _ _) t

/-- Settles O45: the fetch has left `pc` past the three bytes when CALL stacks it. -/
theorem callStacksTheReturnAddress : Obligations.CallStacksTheReturnAddress := by
  refine ⟨callForm_of_callIf exec_call, fun s b2 b3 running quiet held free => ?_⟩
  have decoded : decode s.params.addrLowFirst [0x46, b2, b3] = .ok (.call (targetOf s.params.addrLowFirst b2 b3), []) :=
    Control.decode_jump s.params.addrLowFirst b2 b3 0 true true
  have stepped := MemoryFetch.step_of_holds running quiet held decoded
  refine ⟨_, stepped.trans (exec_call_free (s := s.afterFetch 0x46 [b2, b3]) free _), rfl, ?_⟩
  rw [← Control.afterFetch_pc_three_bytes s 0x46 b2 b3]
  exact Stack.pushed_live free _

/-- A return's meaning, by its sense bit and condition (R197, R198). -/
theorem exec_return {i : Instr} (h : isReturn i = true) : ∃ sense cc, ∀ s,
    exec i s = returnIf (executes sense cc s) s ∧ writesPc i s = executes sense cc s := by
  cases i with
  | rfc => exact ⟨false, .carry, fun _ => ⟨rfl, rfl⟩⟩
  | rfz => exact ⟨false, .zero, fun _ => ⟨rfl, rfl⟩⟩
  | rfs => exact ⟨false, .sign, fun _ => ⟨rfl, rfl⟩⟩
  | rfp => exact ⟨false, .parity, fun _ => ⟨rfl, rfl⟩⟩
  | rtc => exact ⟨true, .carry, fun _ => ⟨rfl, rfl⟩⟩
  | rtz => exact ⟨true, .zero, fun _ => ⟨rfl, rfl⟩⟩
  | rts => exact ⟨true, .sign, fun _ => ⟨rfl, rfl⟩⟩
  | rtp => exact ⟨true, .parity, fun _ => ⟨rfl, rfl⟩⟩
  | _ => cases h

/-- A pop takes back what a push into a free word has added (10_state.md R30). -/
theorem pop_pushed {k : AddrStack} (free : k.sp.val < 7) (v : Addr) (policy : StackPolicy) :
    ∃ k1, (Stack.pushed k v free).pop policy = some (v, k1) ∧ k1.live = k.live := by
  have some_left : 0 < (Stack.pushed k v free).sp.val := Nat.succ_pos _
  have back := (Stack.popped_live some_left).symm.trans (Stack.pushed_live free v)
  obtain ⟨live, newest⟩ := List.append_inj' back rfl
  have popped := Stack.pop_outstanding some_left policy
  rw [List.singleton_inj.mp newest] at popped
  exact ⟨_, popped, live⟩

/-- Settles O54: CALL leaves the flip-flops alone, so that the return executes, and it pops what CALL pushed. -/
theorem callThenReturn : Obligations.CallThenReturn := by
  intro s t i free returns writes
  obtain ⟨sense, cc, meaning⟩ := exec_return returns
  obtain ⟨k, pop, live⟩ := pop_pushed free s.pc s.params.stackPolicy
  obtain ⟨-, taken⟩ := meaning s
  obtain ⟨returned, -⟩ := meaning { s with stk := Stack.pushed s.stk s.pc free, pc := t }
  have same : executes sense cc { s with stk := Stack.pushed s.stk s.pc free, pc := t } = executes sense cc s := rfl
  rw [same, ← taken, writes] at returned
  exact ⟨_, k, exec_call_free free t, rfl, returned.trans (returnIf_of_pop pop), live⟩

/-! ### HALT -/

/-- Settles O55. -/
theorem haltFirstCoding : Obligations.HaltFirstCoding := by
  refine fun s => ⟨Control.exec_halt s, fun b hb running quiet first => ?_⟩
  have decoded : decode s.params.addrLowFirst [b] = .ok (.halt, []) := by
    rcases hb with rfl | rfl
    · exact (InsertedHalt.decode_halt _).1
    · exact (InsertedHalt.decode_halt _).2
  have held : s.holds s.pc [b] := ⟨first, trivial⟩
  have stepped := MemoryFetch.step_of_holds running quiet held decoded
  rw [Control.exec_halt, Control.afterFetch_one_byte] at stepped
  exact ⟨_, stepped, rfl, rfl, rfl, rfl, rfl, rfl⟩

/-! ### RESTART -/

/-- The target of RESTART is XYZ times a power of two, modulo 16384 (R201). -/
theorem restartTarget_toNat (k : BitVec 3) (shift : Nat) :
    (restartTarget k shift).toNat = k.toNat * 2 ^ shift % 16384 := by
  have : k.toNat < 16384 := Nat.lt_trans k.isLt (by decide)
  simp [restartTarget, BitVec.toNat_shiftLeft, BitVec.toNat_setWidth, Nat.shiftLeft_eq, Nat.mod_eq_of_lt this]

section
variable {s : State} {k : BitVec 3}

theorem exec_rst_absent (absent : s.params.hasRestart = false) :
    exec (.rst k) s = .refused (.restartAbsent (firstByte 0 k 5)) := by
  simp [exec, execRst, absent]

theorem exec_rst_open (there : s.params.hasRestart = true) (unchosen : s.params.rstPush = none) :
    exec (.rst k) s = .refused (.restartPushOpen (firstByte 0 k 5)) := by
  simp [exec, execRst, there, unchosen]

theorem exec_rst_chosen (there : s.params.hasRestart = true) {pushes : Bool} (chosen : s.params.rstPush = some pushes) :
    exec (.rst k) s = if pushes then callIf true (restartTarget k s.params.rstShift) s
      else jumpIf true (restartTarget k s.params.rstShift) s := by
  simp [exec, execRst, there, chosen]

end

/-- Settles O57: where RST_PUSH is chosen RESTART is a jump, with or without stacking. -/
theorem restartForms : Obligations.RestartForms := by
  intro s k
  refine ⟨restartTarget k s.params.rstShift, restartTarget_toNat k _, fun there chosen => ?_,
    fun there chosen room => ?_, fun there chosen none_free => ?_, exec_rst_open, exec_rst_absent⟩
  · rw [exec_rst_chosen there chosen]
    rfl
  · rw [exec_rst_chosen there chosen]
    exact callIf_of_canPush room _
  · rw [exec_rst_chosen there chosen]
    exact callIf_of_not_canPush none_free _

end Sys2Proof.Proofs.Linkage
end

section
/-! PROOFS. The moves (40_move.md), I/O CONTROL (43_io.md), and the lines in each bus cycle (20_memory.md section 2). -/

namespace Sys2Proof.Proofs.MoveIo

open Sys2Proof.Machine

/-! ### Moves into a register -/

/-- Settles O28: the meaning is one register write, and writing a register's own value changes nothing. -/
theorem moveRegisterToRegister : Obligations.MoveRegisterToRegister := by
  intro s dst src
  obtain ⟨written, kept⟩ := Move.get_set_frame s.regs dst (s.regs.get src)
  refine ⟨⟨_, rfl, written, kept⟩, ?_⟩
  show Host.Outcome.next { s with regs := s.regs.set src (s.regs.get src) } = .next s
  rw [Regs.set_get_self]

/-- The operand address is the six low bits of H, then L (20_memory.md R73). -/
theorem maddr_toNat (s : State) : (maddr s).toNat = s.regs.h.toNat % 64 * 256 + s.regs.l.toNat :=
  (OpcodeTable.toNat_append_eq _ _).trans (by simp)

section
variable {s : State}

theorem exec_moveRM_of_ok {b : Byte} (h : readByte s (maddr s) = .ok b) (dst : Reg) :
    exec (.moveRM dst) s = .next ((s.log (.pcr (maddr s) b)).setReg dst b) := by
  simp only [exec, execMoveRM, readM, MemoryCycles.memRead_of_ok h, orFault_ok]

theorem exec_moveRM_of_error {f : Fault} (h : readByte s (maddr s) = .error f) (dst : Reg) :
    exec (.moveRM dst) s = .fault f := by
  simp only [exec, execMoveRM, readM, MemoryCycles.memRead_of_error h, orFault_error]

end

/-- Settles O29. -/
theorem moveMemoryToRegister : Obligations.MoveMemoryToRegister := by
  refine fun s dst => ⟨maddr_toNat s, fun b hb => ?_, fun f hf => exec_moveRM_of_error hf dst⟩
  obtain ⟨written, kept⟩ := Move.get_set_frame s.regs dst b
  exact ⟨_, exec_moveRM_of_ok hb dst, written, kept⟩

/-! ### Moves into memory -/

section
variable {s : State} {v : Byte}

/-- A move into implemented memory: its byte is stored, and no other byte changes (R132, R134). -/
theorem store_inside (room : (maddr s).toNat < s.params.memSize) :
    ∃ m, orFault (writeM s v) .next = .next { s with mem := m, bus := .pcw (maddr s) v :: s.bus } ∧
      m.byteAt (maddr s).toNat = some v ∧ ∀ x : Nat, x ≠ (maddr s).toNat → m.byteAt x = s.mem.byteAt x := by
  refine ⟨_, ?_, MemoryCycles.byteAt_store_same s.mem _ v, fun x hx => MemoryCycles.byteAt_store_other hx v⟩
  rw [writeM, MemoryCycles.memWrite_inside room, orFault_ok]
  rfl

theorem store_beyond (beyond : s.params.memSize ≤ (maddr s).toNat) :
    orFault (writeM s v) .next = .fault (.unimplemented (maddr s)) := by
  rw [writeM, MemoryCycles.memWrite_beyond beyond, orFault_error]

end

/-- Settles O30. -/
theorem moveRegisterToMemory : Obligations.MoveRegisterToMemory := fun _ _ => ⟨store_inside, store_beyond⟩

/-- Settles O32: where the byte is there already the store changes no address's byte. -/
theorem moveImmediateToMemory : Obligations.MoveImmediateToMemory := by
  refine fun s n => ⟨fun room => ?_, store_beyond⟩
  obtain ⟨m, meaning, here, elsewhere⟩ := store_inside (v := n) room
  refine ⟨m, meaning, here, elsewhere, fun already x => ?_⟩
  by_cases hx : x = (maddr s).toNat
  · rw [hx, here, already]
  · exact elsewhere x hx

/-! ### I/O CONTROL -/

/-- The control word 00 :: MMM of INP (R220). -/
theorem inp_control : ∀ m : BitVec 3,
    (0 : BitVec 2) ++ m = m.zeroExtend 5 ∧ (m.zeroExtend 5).extractLsb' 3 2 = 0 := by decide

/-- The control word RR :: MMM of IO asks for no input (R221). -/
theorem io_control : ∀ (r : BitVec 2) (m : BitVec 3), r ≠ 0 → (r ++ m).extractLsb' 3 2 ≠ 0 := by decide

/-- INP's meaning, by the unit's answer (R220). -/
theorem exec_inp (m : BitVec 3) (s : State) : exec (.inp m) s = .next { s with
    regs := { s.regs with a := ioReply s (m.zeroExtend 5) s.regs.a }
    ioAnswers := s.ioAnswers.tail
    bus := .pcc (m.zeroExtend 5) s.regs.a (some (ioReply s (m.zeroExtend 5) s.regs.a)) :: s.bus } := by
  obtain ⟨word, input⟩ := inp_control m
  rcases ioControl_cases (m.zeroExtend 5) s with ⟨-, meaning⟩ | ⟨output, -⟩
  · rw [← meaning, ← word]
    rfl
  · exact absurd input output

/-- Settles O58: the answer is the next of State's, or the oracle's where there is none. -/
theorem inputLoadsAccumulator : Obligations.InputLoadsAccumulator := by
  refine fun s m => ⟨fun b rest answers => ?_, fun answers => ?_⟩
  · simp only [exec_inp, ioReply, answers, List.tail_cons]
  · simp only [exec_inp, ioReply, answers, List.tail_nil]

/-- Settles O59. -/
theorem outputCommand : Obligations.OutputCommand := by
  refine fun s r m hr => ⟨r ++ m, OpcodeTable.toNat_append_eq r m, ?_⟩
  rcases ioControl_cases (r ++ m) s with ⟨input, -⟩ | ⟨-, meaning⟩
  · exact absurd input (io_control r m hr)
  · exact congrArg Host.Outcome.next meaning

/-! ### The lines -/

/-- ADDRESS 1: the cycle type above the high six address bits (20_memory.md R64). -/
theorem address1_toNat (c : BusCycle) (st : BusState) (a : Addr) :
    (address1 c st a).lines.toNat = c.typeCode.toNat * 64 + a.toNat / 256 := by
  have := a.isLt
  refine (OpcodeTable.toNat_append_eq _ _).trans ?_
  rw [BitVec.extractLsb'_toNat, Nat.shiftRight_eq_div_pow]
  omega

/-- ADDRESS 2: the low eight address bits (20_memory.md R64). -/
theorem address2_toNat (a : Addr) : (address2 a).lines.toNat = a.toNat % 256 := by
  simp [address2]

/-- Settles O9: the three memory cycles put out both address bytes and transfer a byte, the I/O cycle its control
word and A. -/
theorem transfersOfEachCycle : Obligations.TransfersOfEachCycle := by
  intro n a b out ack ctl inp
  refine ⟨⟨rfl, rfl, rfl, rfl⟩, ⟨_, _, rfl, ?_, address2_toNat a⟩, ⟨_, _, rfl, ?_, address2_toNat a⟩,
    ⟨_, _, rfl, ?_, address2_toNat a⟩, ⟨_, rfl, ?_⟩⟩
  · exact (address1_toNat (.pci a b ack) .synch a).trans (Nat.zero_add _)
  · exact address1_toNat (.pcr a b) .synch a
  · exact address1_toNat (.pcw a b) .synch a
  · have free_bit := (Config.pccD0 n).toNat_le
    rw [OpcodeTable.toNat_append_eq, OpcodeTable.toNat_append_eq, BitVec.toNat_ofBool]
    show ((1 * 32 + ctl.toNat) * 2 + (Config.pccD0 n).toNat) / 2 = 32 + ctl.toNat
    omega

end Sys2Proof.Proofs.MoveIo
end

section
/-! PROOFS. The instruction boundary (30_encoding.md section 7): the step from memory, and the insertion of an
instruction (60_exceptions.md section 3) with its uses, a launch with a fixed entry among them. -/

namespace Sys2Proof.Proofs.Boundary

open Sys2Proof.Machine

/-- Settles O10. -/
theorem stepRunsTheFetchedInstruction : Obligations.StepRunsTheFetchedInstruction :=
  fun _ _ _ _ => MemoryFetch.step_of_holds

/-! ### The bytes that are supplied -/

section
variable {s t : State} {b1 : Byte} {bs : List Byte} {d2 d3 : Option Byte} {i : Instr} {f : Fault}

/-- What a PCI cycle brings depends on memory and MEM_SIZE alone (R233). -/
theorem supplied_congr (mem : t.mem = s.mem) (params : t.params = s.params) (a : Addr) (d : Option Byte) :
    t.supplied a d = s.supplied a d := by
  cases d with
  | some b => rfl
  | none => exact readByte_congr mem params a

theorem supplies_congr (mem : t.mem = s.mem) (params : t.params = s.params) :
    ∀ (bs : List Byte) (drives : List (Option Byte)) (a : Addr), s.supplies a drives bs → t.supplies a drives bs
  | [], _, _, _ => by simp [State.supplies]
  | _ :: _, [], _, h => by simp [State.supplies] at h
  | b :: bs, d :: drives, a, h => by
    obtain ⟨first, later⟩ := h
    have same : t.nextOperand a = s.nextOperand a := by simp only [State.nextOperand, params]
    exact ⟨(supplied_congr mem params a d).trans first, same ▸ supplies_congr mem params bs drives _ later⟩

/-- The later bytes of an inserted instruction are those supplied, and `pc` moves for them as INT_OPERAND_ADVANCE
says (R235). -/
theorem fetchRest_of_supplies (at0 : Addr) (hb : s.supplies s.pc [d2, d3] bs)
    (hd : decode s.params.addrLowFirst (b1 :: bs) = .ok (i, [])) :
    fetchRest b1 at0 d2 d3 s.params.intOperandAdvance s = .instr i { s with
      ir := b1
      iaddr := at0
      pc := if s.params.intOperandAdvance then s.pc + BitVec.ofNat 14 bs.length else s.pc
      bus := insertedCycles s.params.intOperandAdvance s.pc bs ++ s.bus } := by
  rcases MemoryFetch.decode_whole_cases hd with ⟨hl, rfl, rfl⟩ | ⟨b2, hl, rfl, rfl⟩ | ⟨b2, b3, hl, rfl, rfl⟩
  · simp [fetchRest, hl, insertedCycles]
  · obtain ⟨h2, -⟩ := hb
    have f2 := fetchByte_supplied (t := { s with ir := b1, iaddr := at0 }) rfl rfl rfl
      s.params.intOperandAdvance false h2
    simp only [fetchRest, hl, f2]
    rfl
  · obtain ⟨h2, h3, -⟩ := hb
    have f2 := fetchByte_supplied (t := { s with ir := b1, iaddr := at0 }) rfl rfl rfl
      s.params.intOperandAdvance false h2
    have f3 := fetchByte_supplied
      (t := acceptByte s.params.intOperandAdvance false b2 { s with ir := b1, iaddr := at0 }) rfl rfl rfl
      s.params.intOperandAdvance false h3
    simp only [fetchRest, hl, f2, f3]
    cases advance : s.params.intOperandAdvance with
    | false => simp [acceptByte, insertedCycles]
    | true => simp [acceptByte, insertedCycles, BitVec.add_assoc]

/-- No second byte where one is needed. -/
theorem fetchRest_of_second_missing (at0 : Addr) (needed : 2 ≤ lengthOf b1) (missing : s.supplied s.pc d2 = .error f) :
    fetchRest b1 at0 d2 d3 s.params.intOperandAdvance s = .stop f := by
  have f2 := fetchByte_not_supplied (t := { s with ir := b1, iaddr := at0 }) rfl rfl rfl
    s.params.intOperandAdvance false missing
  rcases lengthOf_cases b1 with hl | hl | hl
  · omega
  · simp only [fetchRest, hl, f2]
  · simp only [fetchRest, hl, f2]

/-- No third byte where one is needed. -/
theorem fetchRest_of_third_missing (at0 : Addr) {b2 : Byte} (needed : lengthOf b1 = 3)
    (h2 : s.supplied s.pc d2 = .ok b2) (missing : s.supplied (s.nextOperand s.pc) d3 = .error f) :
    fetchRest b1 at0 d2 d3 s.params.intOperandAdvance s = .stop f := by
  have f2 := fetchByte_supplied (t := { s with ir := b1, iaddr := at0 }) rfl rfl rfl
    s.params.intOperandAdvance false h2
  have f3 := fetchByte_not_supplied
    (t := acceptByte s.params.intOperandAdvance false b2 { s with ir := b1, iaddr := at0 }) rfl rfl rfl
    s.params.intOperandAdvance false missing
  simp only [fetchRest, needed, f2, f3]

/-! ### The interrupt fetch -/

/-- The state after the interrupt fetch of the first byte: RUNNING, `pc` as it was (R233, R234). -/
def afterAck (s : State) (b1 : Byte) : State := acceptByte false true b1 (takeInterrupt s)

theorem fetchInserted_of_supplied {ins : Insertion} (h : s.supplied s.pc ins.byte1 = .ok b1) :
    fetchInserted ins s = fetchRest b1 s.pc ins.byte2 ins.byte3 s.params.intOperandAdvance (afterAck s b1) := by
  simp only [fetchInserted, fetchByte_supplied (t := takeInterrupt s) rfl rfl rfl false true h, afterAck]

theorem fetchInserted_of_first_missing {ins : Insertion} (h : s.supplied s.pc ins.byte1 = .error f) :
    fetchInserted ins s = .stop f := by
  simp only [fetchInserted, fetchByte_not_supplied (t := takeInterrupt s) rfl rfl rfl false true h]

/-- The interrupt fetch leads to the instruction of the bytes supplied (R233 to R235). -/
theorem fetchInserted_of_supplies {ins : Insertion} (h1 : s.supplied s.pc ins.byte1 = .ok b1)
    (hb : s.supplies s.pc [ins.byte2, ins.byte3] bs)
    (hd : decode s.params.addrLowFirst (b1 :: bs) = .ok (i, [])) :
    fetchInserted ins s = .instr i { s.afterInsert b1 bs with intMoves := s.intMoves } :=
  (fetchInserted_of_supplied h1).trans
    (fetchRest_of_supplies (s := afterAck s b1) s.pc (supplies_congr (s := s) (t := afterAck s b1) rfl rfl _ _ _ hb) hd)

end

/-! ### The step with a request -/

section
variable {s : State} {ins : Insertion} {moves : List (Option Insertion)} {b1 : Byte} {f : Fault}

theorem step_of_stop (h : nextInstr s = .stop f) : step s = .fault f := by
  simp only [step, h]

/-- A step with a request performs the instruction of the bytes supplied (R232, R237). -/
theorem step_of_supplies {bs : List Byte} {i : Instr} (request : s.intMoves = some ins :: moves)
    (h1 : s.supplied s.pc ins.byte1 = .ok b1) (hb : s.supplies s.pc [ins.byte2, ins.byte3] bs)
    (hd : decode s.params.addrLowFirst (b1 :: bs) = .ok (i, [])) : step s = exec i (s.afterInsert b1 bs) := by
  have first : State.supplied { s with intMoves := moves } s.pc ins.byte1 = .ok b1 :=
    (supplied_congr rfl rfl _ _).trans h1
  have later : State.supplies { s with intMoves := moves } s.pc [ins.byte2, ins.byte3] bs :=
    supplies_congr (s := s) (t := { s with intMoves := moves }) rfl rfl _ _ _ hb
  simp only [step, nextInstr_request request, fetchInserted_of_supplies first later hd]
  simp [State.afterInsert, request]

theorem step_of_first_missing (request : s.intMoves = some ins :: moves)
    (h1 : s.supplied s.pc ins.byte1 = .error f) : step s = .fault f := by
  refine step_of_stop ((nextInstr_request request).trans ?_)
  exact fetchInserted_of_first_missing (s := { s with intMoves := moves }) ((supplied_congr rfl rfl _ _).trans h1)

theorem step_of_second_missing (request : s.intMoves = some ins :: moves) (h1 : s.supplied s.pc ins.byte1 = .ok b1)
    (needed : 2 ≤ lengthOf b1) (h2 : s.supplied s.pc ins.byte2 = .error f) : step s = .fault f := by
  have first : State.supplied { s with intMoves := moves } s.pc ins.byte1 = .ok b1 :=
    (supplied_congr rfl rfl _ _).trans h1
  refine step_of_stop ((nextInstr_request request).trans ((fetchInserted_of_supplied first).trans ?_))
  exact fetchRest_of_second_missing (s := afterAck { s with intMoves := moves } b1) _ needed
    ((supplied_congr rfl rfl _ _).trans h2)

theorem step_of_third_missing {b2 : Byte} (request : s.intMoves = some ins :: moves)
    (h1 : s.supplied s.pc ins.byte1 = .ok b1) (needed : lengthOf b1 = 3) (h2 : s.supplied s.pc ins.byte2 = .ok b2)
    (h3 : s.supplied (s.nextOperand s.pc) ins.byte3 = .error f) : step s = .fault f := by
  have first : State.supplied { s with intMoves := moves } s.pc ins.byte1 = .ok b1 :=
    (supplied_congr rfl rfl _ _).trans h1
  refine step_of_stop ((nextInstr_request request).trans ((fetchInserted_of_supplied first).trans ?_))
  exact fetchRest_of_third_missing (s := afterAck { s with intMoves := moves } b1) _ needed
    ((supplied_congr rfl rfl _ _).trans h2) ((supplied_congr rfl rfl _ _).trans h3)

/-- Three driven bytes: memory is not asked (R233). -/
theorem step_of_three_driven {b2 b3 : Byte} {i : Instr}
    (request : s.intMoves = some ⟨some b1, some b2, some b3⟩ :: moves)
    (hd : decode s.params.addrLowFirst [b1, b2, b3] = .ok (i, [])) : step s = exec i (s.afterInsert b1 [b2, b3]) :=
  step_of_supplies request rfl ⟨rfl, rfl, trivial⟩ hd

end

/-- Settles O11. -/
theorem stepInsertsAnInstruction : Obligations.StepInsertsAnInstruction :=
  fun _ _ _ request => ⟨fun _ _ _ => step_of_supplies request, fun _ => step_of_first_missing request,
    fun _ _ => step_of_second_missing request, fun _ _ _ => step_of_third_missing request⟩

/-! ### The insertions the source names -/

/-- `11 rrr rrr` is the NO-OP MOVE r,r, from its one byte (30_encoding.md R105). -/
theorem decode_noop (lowFirst : Bool) (r : Reg) :
    decode lowFirst [firstByte 3 r.code r.code] = .ok (.moveRR r r, []) := by
  rw [Control.decode_op11, OpcodeMap.decodeOp11_moveRR]

theorem exec_noop (r : Reg) (s : State) : exec (.moveRR r r) s = .next s :=
  (MoveIo.moveRegisterToRegister s r r).2

/-- The bytes of JMP are read whole, in either order of the address (42_control.md R191). -/
theorem decode_jmp (lowFirst : Bool) (b2 b3 : Byte) :
    decode lowFirst [0x44, b2, b3] = .ok (.jmp (targetOf lowFirst b2 b3), []) :=
  Control.decode_jump lowFirst b2 b3 0 true false

theorem exec_jmp (t : Addr) (s : State) : exec (.jmp t) s = .next { s with pc := t } := rfl

theorem targetOf_zero (lowFirst : Bool) : targetOf lowFirst 0 0 = 0 := by
  cases lowFirst <;> rfl

/-- Settles O14: the interrupt fetch changes none of the fields named but the run condition and, where it advances
`pc`, `pc`, which the jump writes. -/
theorem namedInsertions : Obligations.NamedInsertions := by
  refine fun s moves => ⟨fun r d2 d3 request => ?_, fun request => ?_⟩
  · have stepped := InsertedHalt.step_of_inserted_one_byte request (decode_noop s.params.addrLowFirst r)
    rw [exec_noop, InsertedHalt.afterInsert_one_byte] at stepped
    exact ⟨_, stepped, rfl, rfl, rfl, rfl, rfl, rfl⟩
  · have stepped := step_of_three_driven request (decode_jmp s.params.addrLowFirst 0x00 0x00)
    rw [exec_jmp] at stepped
    exact ⟨_, stepped, rfl, targetOf_zero _, rfl, rfl, rfl, rfl⟩

/-- Settles O15: CALL stacks the `pc` that the interrupt fetch has left. -/
theorem insertedCallStacksTwoPast : Obligations.InsertedCallStacksTwoPast := by
  intro s b2 b3 moves request room
  have decoded : decode s.params.addrLowFirst [0x46, b2, b3] = .ok (.call (targetOf s.params.addrLowFirst b2 b3), []) :=
    Control.decode_jump s.params.addrLowFirst b2 b3 0 true true
  obtain ⟨k, push, called⟩ := Linkage.callIf_of_canPush (s := s.afterInsert 0x46 [b2, b3]) room
    (targetOf s.params.addrLowFirst b2 b3)
  have stepped := step_of_three_driven request decoded
  exact ⟨_, k, stepped.trans called, rfl, rfl, rfl, push⟩

/-! ### The launch with a fixed entry (70_reset_and_hazards.md R262, R263) -/

/-- Settles O17: the inserted jump writes `pc`, and no move is left after it. -/
theorem resetState : Obligations.ResetState := by
  refine ⟨fun p pc image moves answers => ⟨rfl, rfl, rfl, rfl, rfl, rfl, rfl, rfl⟩, fun p pc e image answers => ?_,
    rfl, rfl, rfl, rfl⟩
  obtain ⟨b2, b3, bytes, target⟩ := targetOf_targetBytes p.addrLowFirst e
  have moves : entryMoves p.addrLowFirst e = [some ⟨some 0x44, some b2, some b3⟩] := by
    simp only [entryMoves, encode, bytes]
    rfl
  have stepped := step_of_three_driven (s := State.launch p pc image (entryMoves p.addrLowFirst e) answers) moves
    (decode_jmp p.addrLowFirst b2 b3)
  rw [target, exec_jmp, ← bytes] at stepped
  refine ⟨_, stepped, rfl, rfl, rfl, ?_, rfl, rfl⟩
  rw [moves]
  rfl

end Sys2Proof.Proofs.Boundary
end
